-- ==== Sys2Proof/Word.lean ====
section
/-! DEFINITION. The word types of the machine: bytes, 16-bit words, and the three operand fields of an
instruction word (spec/00_scope.md R8, spec/30_encoding.md R71). All values are unsigned. -/

namespace Sys2Proof

/-- An 8-bit value: a register, a memory byte, a display cell. -/
abbrev Byte := BitVec 8

/-- A 16-bit value: `I`, `PC`, a stack slot, an instruction word. -/
abbrev Word := BitVec 16

/-- The 4-bit number of a register `V0`..`VF` (fields `X`, `Y`) or of a logical key. -/
abbrev RegIdx := BitVec 4

/-- The 12-bit address field `ADDR`. -/
abbrev Addr12 := BitVec 12

end Sys2Proof
end

