-- ==== Sys2Proof/Syntax.lean ====
section
/-! DEFINITION. The instructions: one constructor per row of spec/opcode_table.json, in the table's order.
Operand fields are those of the row (spec/30_encoding.md R71 to R74). -/

namespace Sys2Proof

/-- One decoded instruction (R74). `x`, `y` are register numbers, `k` the 8-bit, `n` the 4-bit and
`addr` the 12-bit immediate. -/
inductive Instr where
  | cls
  | ret
  | jp (addr : Addr12)
  | call (addr : Addr12)
  | seK (x : RegIdx) (k : Byte)
  | sneK (x : RegIdx) (k : Byte)
  | seReg (x y : RegIdx)
  | ldK (x : RegIdx) (k : Byte)
  | addK (x : RegIdx) (k : Byte)
  | ldReg (x y : RegIdx)
  | orReg (x y : RegIdx)
  | andReg (x y : RegIdx)
  | xorReg (x y : RegIdx)
  | addReg (x y : RegIdx)
  | subReg (x y : RegIdx)
  | shrReg (x y : RegIdx)
  | subnReg (x y : RegIdx)
  | shlReg (x y : RegIdx)
  | sneReg (x y : RegIdx)
  | ldI (addr : Addr12)
  /-- `JP V0,ADDR`: the row lists two fields over the same bits, `ADDR` and `X = ADDR[11:8]` (R72, R107). -/
  | jpV0 (x : RegIdx) (addr : Addr12)
  | rnd (x : RegIdx) (k : Byte)
  | drw (x y : RegIdx) (n : BitVec 4)
  | skp (x : RegIdx)
  | sknp (x : RegIdx)
  | ldVxDt (x : RegIdx)
  | ldVxKey (x : RegIdx)
  | ldDtVx (x : RegIdx)
  | ldStVx (x : RegIdx)
  | addI (x : RegIdx)
  | ldF (x : RegIdx)
  | ldB (x : RegIdx)
  | storeRegs (x : RegIdx)
  | loadRegs (x : RegIdx)
  deriving DecidableEq, Repr

end Sys2Proof
end

