-- ==== Sys2Proof/WellFormed.lean ====
section
/-! DEFINITION. Which terms of `Instr` are instructions. Every operand field has exactly its width by type;
the one relation between fields is that of `JP V0,ADDR`, whose `X` is the top nibble of `ADDR`. -/

namespace Sys2Proof

/-- The `X` field read out of the same bits as the top nibble of `ADDR` (spec/30_encoding.md R72). -/
def addrTopNibble (addr : Addr12) : RegIdx := addr.extractLsb' 8 4

/-- The check on an instruction's fields: `JP V0,ADDR` carries `X = ADDR[11:8]` (R72, R107 of
spec/40_flow.md); no other row has two fields over the same bits. -/
def Instr.wellFormed : Instr → Bool
  | .jpV0 x addr => x == addrTopNibble addr
  | .cls | .ret | .jp _ | .call _ | .seK _ _ | .sneK _ _ | .seReg _ _ | .ldK _ _ | .addK _ _
  | .ldReg _ _ | .orReg _ _ | .andReg _ _ | .xorReg _ _ | .addReg _ _ | .subReg _ _ | .shrReg _ _
  | .subnReg _ _ | .shlReg _ _ | .sneReg _ _ | .ldI _ | .rnd _ _ | .drw _ _ _ | .skp _ | .sknp _
  | .ldVxDt _ | .ldVxKey _ | .ldDtVx _ | .ldStVx _ | .addI _ | .ldF _ | .ldB _ | .storeRegs _
  | .loadRegs _ => true

end Sys2Proof
end

