-- ==== Sys2Proof/Decode.lean ====
section
/-! DEFINITION. Decoding and encoding of instruction words (spec/30_encoding.md R70 to R79), and the opcode
map of R74 as data. Decoding depends on no state (R75). -/

namespace Sys2Proof

/-- Why a word is no instruction: the class whose patterns it does not match (R76), or fewer than two bytes. -/
inductive Illegal where
  | class0 | class5 | class8 | class9 | classE | classF
  | truncated
  deriving DecidableEq, Repr

/-- `CLASS = w[15:12]` (R71). -/
def fieldClass (w : Word) : BitVec 4 := w.extractLsb' 12 4

/-- `X = w[11:8]` (R71). -/
def fieldX (w : Word) : RegIdx := w.extractLsb' 8 4

/-- `Y = w[7:4]` (R71). -/
def fieldY (w : Word) : RegIdx := w.extractLsb' 4 4

/-- `N = w[3:0]` (R71). -/
def fieldN (w : Word) : BitVec 4 := w.extractLsb' 0 4

/-- `K = w[7:0]` (R71). -/
def fieldK (w : Word) : Byte := w.extractLsb' 0 8

/-- `ADDR = w[11:0]` (R71). -/
def fieldAddr (w : Word) : Addr12 := w.extractLsb' 0 12

/-- Class 0 matches all 16 bits (R76). -/
def decodeClass0 (w : Word) : Except Illegal Instr :=
  if w = 0x00E0#16 then .ok .cls
  else if w = 0x00EE#16 then .ok .ret
  else .error .class0

/-- Class 8: the low nibble selects the operation (R74). -/
def decodeClass8 (w : Word) : Except Illegal Instr :=
  match (fieldN w).toNat with
  | 0x0 => .ok (.ldReg (fieldX w) (fieldY w))
  | 0x1 => .ok (.orReg (fieldX w) (fieldY w))
  | 0x2 => .ok (.andReg (fieldX w) (fieldY w))
  | 0x3 => .ok (.xorReg (fieldX w) (fieldY w))
  | 0x4 => .ok (.addReg (fieldX w) (fieldY w))
  | 0x5 => .ok (.subReg (fieldX w) (fieldY w))
  | 0x6 => .ok (.shrReg (fieldX w) (fieldY w))
  | 0x7 => .ok (.subnReg (fieldX w) (fieldY w))
  | 0xE => .ok (.shlReg (fieldX w) (fieldY w))
  | _ => .error .class8

/-- Class E: the low byte selects the key test (R74). -/
def decodeClassE (w : Word) : Except Illegal Instr :=
  match (fieldK w).toNat with
  | 0x9E => .ok (.skp (fieldX w))
  | 0xA1 => .ok (.sknp (fieldX w))
  | _ => .error .classE

/-- Class F: the low byte selects the operation (R74). -/
def decodeClassF (w : Word) : Except Illegal Instr :=
  match (fieldK w).toNat with
  | 0x07 => .ok (.ldVxDt (fieldX w))
  | 0x0A => .ok (.ldVxKey (fieldX w))
  | 0x15 => .ok (.ldDtVx (fieldX w))
  | 0x18 => .ok (.ldStVx (fieldX w))
  | 0x1E => .ok (.addI (fieldX w))
  | 0x29 => .ok (.ldF (fieldX w))
  | 0x33 => .ok (.ldB (fieldX w))
  | 0x55 => .ok (.storeRegs (fieldX w))
  | 0x65 => .ok (.loadRegs (fieldX w))
  | _ => .error .classF

/-- Decoding of one word: dispatch by class, then by the sub-opcode within the class (R75). Total; a word of
no row is refused under its class's name. -/
def decodeWord (w : Word) : Except Illegal Instr :=
  match (fieldClass w).toNat with
  | 0x0 => decodeClass0 w
  | 0x1 => .ok (.jp (fieldAddr w))
  | 0x2 => .ok (.call (fieldAddr w))
  | 0x3 => .ok (.seK (fieldX w) (fieldK w))
  | 0x4 => .ok (.sneK (fieldX w) (fieldK w))
  | 0x5 => if fieldN w = 0#4 then .ok (.seReg (fieldX w) (fieldY w)) else .error .class5
  | 0x6 => .ok (.ldK (fieldX w) (fieldK w))
  | 0x7 => .ok (.addK (fieldX w) (fieldK w))
  | 0x8 => decodeClass8 w
  | 0x9 => if fieldN w = 0#4 then .ok (.sneReg (fieldX w) (fieldY w)) else .error .class9
  | 0xA => .ok (.ldI (fieldAddr w))
  | 0xB => .ok (.jpV0 (fieldX w) (fieldAddr w))
  | 0xC => .ok (.rnd (fieldX w) (fieldK w))
  | 0xD => .ok (.drw (fieldX w) (fieldY w) (fieldN w))
  | 0xE => decodeClassE w
  | _ => decodeClassF w

/-- The word of two consecutive bytes, the byte at the lower address in bits 15:8 (R54 of spec/20_memory.md,
R70). -/
def wordOfBytes (hi lo : Byte) : Word := hi ++ lo

/-- Decoding from a stream of bytes: one instruction and the bytes after it. -/
def decode : List Byte → Except Illegal (Instr × List Byte)
  | hi :: lo :: rest =>
    match decodeWord (wordOfBytes hi lo) with
    | .ok i => .ok (i, rest)
    | .error e => .error e
  | _ => .error .truncated

/-- The instruction word of an instruction, from the encoding column of R74. -/
def encode : Instr → Word
  | .cls => 0x00E0#16
  | .ret => 0x00EE#16
  | .jp addr => 0x1#4 ++ addr
  | .call addr => 0x2#4 ++ addr
  | .seK x k => 0x3#4 ++ x ++ k
  | .sneK x k => 0x4#4 ++ x ++ k
  | .seReg x y => 0x5#4 ++ x ++ y ++ 0x0#4
  | .ldK x k => 0x6#4 ++ x ++ k
  | .addK x k => 0x7#4 ++ x ++ k
  | .ldReg x y => 0x8#4 ++ x ++ y ++ 0x0#4
  | .orReg x y => 0x8#4 ++ x ++ y ++ 0x1#4
  | .andReg x y => 0x8#4 ++ x ++ y ++ 0x2#4
  | .xorReg x y => 0x8#4 ++ x ++ y ++ 0x3#4
  | .addReg x y => 0x8#4 ++ x ++ y ++ 0x4#4
  | .subReg x y => 0x8#4 ++ x ++ y ++ 0x5#4
  | .shrReg x y => 0x8#4 ++ x ++ y ++ 0x6#4
  | .subnReg x y => 0x8#4 ++ x ++ y ++ 0x7#4
  | .shlReg x y => 0x8#4 ++ x ++ y ++ 0xE#4
  | .sneReg x y => 0x9#4 ++ x ++ y ++ 0x0#4
  | .ldI addr => 0xA#4 ++ addr
  | .jpV0 _ addr => 0xB#4 ++ addr
  | .rnd x k => 0xC#4 ++ x ++ k
  | .drw x y n => 0xD#4 ++ x ++ y ++ n
  | .skp x => 0xE#4 ++ x ++ 0x9E#8
  | .sknp x => 0xE#4 ++ x ++ 0xA1#8
  | .ldVxDt x => 0xF#4 ++ x ++ 0x07#8
  | .ldVxKey x => 0xF#4 ++ x ++ 0x0A#8
  | .ldDtVx x => 0xF#4 ++ x ++ 0x15#8
  | .ldStVx x => 0xF#4 ++ x ++ 0x18#8
  | .addI x => 0xF#4 ++ x ++ 0x1E#8
  | .ldF x => 0xF#4 ++ x ++ 0x29#8
  | .ldB x => 0xF#4 ++ x ++ 0x33#8
  | .storeRegs x => 0xF#4 ++ x ++ 0x55#8
  | .loadRegs x => 0xF#4 ++ x ++ 0x65#8

/-- The bytes of an instruction in memory order, most significant first (R70). -/
def encodeBytes (i : Instr) : List Byte :=
  [(encode i).extractLsb' 8 8, (encode i).extractLsb' 0 8]

/-- One row of the opcode map of R74: a word `w` selects the row when `w AND mask = pattern`. -/
structure OpcodeRow where
  mnemonic : String
  pattern : Word
  mask : Word
  deriving DecidableEq, Repr

/-- Classes 0 to 7 of the opcode map (R74). -/
def opcodeMapLow : List OpcodeRow :=
  [⟨"CLS", 0x00E0#16, 0xFFFF#16⟩, ⟨"RET", 0x00EE#16, 0xFFFF#16⟩,
   ⟨"JP_ADDR", 0x1000#16, 0xF000#16⟩, ⟨"CALL_ADDR", 0x2000#16, 0xF000#16⟩,
   ⟨"SE_Vx_K", 0x3000#16, 0xF000#16⟩, ⟨"SNE_Vx_K", 0x4000#16, 0xF000#16⟩,
   ⟨"SE_Vx_Vy", 0x5000#16, 0xF00F#16⟩, ⟨"LD_Vx_K", 0x6000#16, 0xF000#16⟩,
   ⟨"ADD_Vx_K", 0x7000#16, 0xF000#16⟩]

/-- Class 8 of the opcode map (R74). -/
def opcodeMapClass8 : List OpcodeRow :=
  [⟨"LD_Vx_Vy", 0x8000#16, 0xF00F#16⟩, ⟨"OR_Vx_Vy", 0x8001#16, 0xF00F#16⟩,
   ⟨"AND_Vx_Vy", 0x8002#16, 0xF00F#16⟩, ⟨"XOR_Vx_Vy", 0x8003#16, 0xF00F#16⟩,
   ⟨"ADD_Vx_Vy", 0x8004#16, 0xF00F#16⟩, ⟨"SUB_Vx_Vy", 0x8005#16, 0xF00F#16⟩,
   ⟨"SHR_Vx_Vy", 0x8006#16, 0xF00F#16⟩, ⟨"SUBN_Vx_Vy", 0x8007#16, 0xF00F#16⟩,
   ⟨"SHL_Vx_Vy", 0x800E#16, 0xF00F#16⟩]

/-- Classes 9 to F of the opcode map (R74). -/
def opcodeMapHigh : List OpcodeRow :=
  [⟨"SNE_Vx_Vy", 0x9000#16, 0xF00F#16⟩, ⟨"LD_I_ADDR", 0xA000#16, 0xF000#16⟩,
   ⟨"JP_V0_ADDR", 0xB000#16, 0xF000#16⟩, ⟨"RND_Vx_K", 0xC000#16, 0xF000#16⟩,
   ⟨"DRW_Vx_Vy_N", 0xD000#16, 0xF000#16⟩, ⟨"SKP_Vx", 0xE09E#16, 0xF0FF#16⟩,
   ⟨"SKNP_Vx", 0xE0A1#16, 0xF0FF#16⟩, ⟨"LD_Vx_DT", 0xF007#16, 0xF0FF#16⟩,
   ⟨"LD_Vx_KEY", 0xF00A#16, 0xF0FF#16⟩, ⟨"LD_DT_Vx", 0xF015#16, 0xF0FF#16⟩,
   ⟨"LD_ST_Vx", 0xF018#16, 0xF0FF#16⟩, ⟨"ADD_I_Vx", 0xF01E#16, 0xF0FF#16⟩,
   ⟨"LD_F_Vx", 0xF029#16, 0xF0FF#16⟩, ⟨"LD_B_Vx", 0xF033#16, 0xF0FF#16⟩,
   ⟨"LD__I__Vx", 0xF055#16, 0xF0FF#16⟩, ⟨"LD_Vx__I", 0xF065#16, 0xF0FF#16⟩]

/-- The opcode map (R74), 34 rows in the table's order. -/
def opcodeMap : List OpcodeRow := opcodeMapLow ++ opcodeMapClass8 ++ opcodeMapHigh

/-- `w` selects the row `r` (R74). -/
def OpcodeRow.selects (r : OpcodeRow) (w : Word) : Bool := (w &&& r.mask) == r.pattern

/-- The row of the opcode map that an instruction stands for, by its mnemonic. -/
def Instr.mnemonic : Instr → String
  | .cls => "CLS" | .ret => "RET" | .jp _ => "JP_ADDR" | .call _ => "CALL_ADDR"
  | .seK _ _ => "SE_Vx_K" | .sneK _ _ => "SNE_Vx_K" | .seReg _ _ => "SE_Vx_Vy"
  | .ldK _ _ => "LD_Vx_K" | .addK _ _ => "ADD_Vx_K" | .ldReg _ _ => "LD_Vx_Vy"
  | .orReg _ _ => "OR_Vx_Vy" | .andReg _ _ => "AND_Vx_Vy" | .xorReg _ _ => "XOR_Vx_Vy"
  | .addReg _ _ => "ADD_Vx_Vy" | .subReg _ _ => "SUB_Vx_Vy" | .shrReg _ _ => "SHR_Vx_Vy"
  | .subnReg _ _ => "SUBN_Vx_Vy" | .shlReg _ _ => "SHL_Vx_Vy" | .sneReg _ _ => "SNE_Vx_Vy"
  | .ldI _ => "LD_I_ADDR" | .jpV0 _ _ => "JP_V0_ADDR" | .rnd _ _ => "RND_Vx_K"
  | .drw _ _ _ => "DRW_Vx_Vy_N" | .skp _ => "SKP_Vx" | .sknp _ => "SKNP_Vx"
  | .ldVxDt _ => "LD_Vx_DT" | .ldVxKey _ => "LD_Vx_KEY" | .ldDtVx _ => "LD_DT_Vx"
  | .ldStVx _ => "LD_ST_Vx" | .addI _ => "ADD_I_Vx" | .ldF _ => "LD_F_Vx" | .ldB _ => "LD_B_Vx"
  | .storeRegs _ => "LD__I__Vx" | .loadRegs _ => "LD_Vx__I"

/-- The first word of an instruction whose `nbits` table bits are `w`; the bits above them are 0. Every row
has 16 bits (R70). -/
def tableWord (nbits w : Nat) : Word := BitVec.ofNat 16 (w % 2 ^ nbits)

/-- What the decoder reads from an instruction whose bits, numbered as spec/opcode_table.json numbers them,
are `w`: the word is laid out as the two bytes the hardware stores and decoded from them. -/
def decodeTableWord (nbits w : Nat) : Option Instr :=
  match decode [(tableWord nbits w).extractLsb' 8 8, (tableWord nbits w).extractLsb' 0 8] with
  | .ok (i, _) => some i
  | .error _ => none

end Sys2Proof
end

