-- ==== Sys2Proof/Config.lean ====
section
/-! DEFINITION. What the spec fixes for this core and what it leaves open (spec/00_scope.md R5, R6).
An `opaque` constant is a free value: nothing in Lean can compute it, so a theorem holds whatever it is. -/

namespace Sys2Proof.Config

/-- `MEM_SIZE` (R5). -/
abbrev memSize : Nat := 4096

/-- `LOAD_ADDR` (R5): where a ROM is loaded and where execution starts. -/
abbrev loadAddr : Nat := 0x200

/-- `ROM_MAX = MEM_SIZE - LOAD_ADDR` (R5). -/
abbrev romMax : Nat := 3584

/-- `STACK_DEPTH` (R5). -/
abbrev stackDepth : Nat := 16

/-- `GLYPH_BYTES` (R5). -/
abbrev glyphBytes : Nat := 5

/-- `DISP_W` (R6, decision D1; the spec's value from general knowledge: log entry 11). -/
abbrev dispW : Nat := 64

/-- `DISP_H` (R6, decision D1; log entry 11). -/
abbrev dispH : Nat := 32

/-- The period of `TMR_60` in seconds (R5 `T60_HZ`, R30 of spec/10_state.md). -/
def tickPeriod : Rat := 1 / 60

/-- DESIGN CHOICE (unsafe, log entry 2): the `CPU_HZ` that `State.reset` is constructed with. The spec gives
no default (C13, D43); statements quantify over every clock. -/
def resetCpuHz : Rat := 600

/-- DESIGN CHOICE (unsafe, log entry 1): the `SCHIP` that `State.reset` is constructed with (legacy mode).
Statements quantify over both modes. -/
def resetSchip : Bool := false

/-- `FONT_BASE` (R6, D2): OPEN, with `FONT_BASE + 80 <= 0x200`, which the bound 433 says. Free value, safe
(log entry 8). -/
opaque fontBase : Fin 433

/-- `ADDI_VF_CLEAR` (R6, R181 of spec/44_index_memory.md, D13): OPEN. Free value, safe (log entry 9). -/
opaque addiVfClear : Bool

/-- `TRACE_FN` (R6, R149 of spec/42_display.md, D18): OPEN, from the old cell value to 0..254. Free value,
safe (log entry 10). -/
opaque traceFn : Byte → Fin 255

/-- The `n`-th answer of the random source (R12, R229 of spec/46_host_interface.md, D37). Free value, safe
(log entry 5). -/
opaque randByte : Nat → Byte

/-- The `elapsed` argument, in seconds, that the host passes to the `n`-th step (R200 of
spec/45_step_cycle.md, D30; a liberty of the host, R231). Free value, safe (log entry 6). -/
opaque elapsed : Nat → NNRat

end Sys2Proof.Config
end

