-- ==== Sys2Proof/Machine/Memory.lean ====
section
/-! DEFINITION. Memory as plain data: the list of the bytes that differ from the reset image, in one canonical
form (spec/20_memory.md R50 to R52, spec/70_reset_and_hazards.md R272). Bounds are checked by the operations
of Machine/Ops.lean. -/

namespace Sys2Proof.Machine

/-- The bytes whose value is not that of the reset image, as (address, byte) pairs with rising addresses. -/
abbrev Memory := List Host.Cell

/-- Glyphs 0 to 7 of the hexadecimal font (R52, the spec's values from general knowledge: log entry 12). -/
def fontDataLow : List Byte :=
  [0xF0#8, 0x90#8, 0x90#8, 0x90#8, 0xF0#8] ++ [0x20#8, 0x60#8, 0x20#8, 0x20#8, 0x70#8] ++
  [0xF0#8, 0x10#8, 0xF0#8, 0x80#8, 0xF0#8] ++ [0xF0#8, 0x10#8, 0xF0#8, 0x10#8, 0xF0#8] ++
  [0x90#8, 0x90#8, 0xF0#8, 0x10#8, 0x10#8] ++ [0xF0#8, 0x80#8, 0xF0#8, 0x10#8, 0xF0#8] ++
  [0xF0#8, 0x80#8, 0xF0#8, 0x90#8, 0xF0#8] ++ [0xF0#8, 0x10#8, 0x20#8, 0x40#8, 0x40#8]

/-- Glyphs 8 to F of the hexadecimal font (R52). -/
def fontDataHigh : List Byte :=
  [0xF0#8, 0x90#8, 0xF0#8, 0x90#8, 0xF0#8] ++ [0xF0#8, 0x90#8, 0xF0#8, 0x10#8, 0xF0#8] ++
  [0xF0#8, 0x90#8, 0xF0#8, 0x90#8, 0x90#8] ++ [0xE0#8, 0x90#8, 0xE0#8, 0x90#8, 0xE0#8] ++
  [0xF0#8, 0x80#8, 0x80#8, 0x80#8, 0xF0#8] ++ [0xE0#8, 0x90#8, 0x90#8, 0x90#8, 0xE0#8] ++
  [0xF0#8, 0x80#8, 0xF0#8, 0x80#8, 0xF0#8] ++ [0xF0#8, 0x80#8, 0xF0#8, 0x80#8, 0x80#8]

/-- `FONT_DATA`, 80 bytes (R52). -/
def fontData : List Byte := fontDataLow ++ fontDataHigh

/-- What an unlisted address reads as: the reset image without a ROM, zero but for the font (R51, R52, R272).
The font lies below `LOAD_ADDR` (R6), so the program area is zero. -/
def resetByte (a : Nat) : Byte :=
  if Config.loadAddr ≤ a then 0
  else if Config.fontBase.val ≤ a ∧ a < Config.fontBase.val + 80 then
    fontData.getD (a - Config.fontBase.val) 0
  else 0

/-- The byte at address `a`. -/
def Memory.read : Memory → Nat → Byte
  | [], a => resetByte a
  | c :: m, a => if c.1 = a then c.2 else Memory.read m a

/-- The memory with no entry for address `a`. -/
def Memory.erase (m : Memory) (a : Nat) : Memory := m.filter (fun c => c.1 != a)

/-- The entry `(a, b)` put before the first entry of a higher address. -/
def Memory.insertCell : Memory → Nat → Byte → Memory
  | [], a, b => [(a, b)]
  | c :: m, a, b => if a < c.1 then (a, b) :: c :: m else c :: Memory.insertCell m a b

/-- `MEM[a] <- b`, keeping the canonical form: a byte equal to the reset image's is not listed. -/
def Memory.write (m : Memory) (a : Nat) (b : Byte) : Memory :=
  if b = resetByte a then m.erase a else (m.erase a).insertCell a b

/-- The bytes `bs` stored at `a`, `a + 1`, … (the cartridge load, R272). -/
def Memory.writeBytes : Memory → Nat → List Byte → Memory
  | m, _, [] => m
  | m, a, b :: bs => Memory.writeBytes (m.write a b) (a + 1) bs

/-- The canonical form: addresses strictly rising and below `MEM_SIZE`, and no entry equal to what its address
reads as when unlisted. -/
abbrev Memory.wf (m : Memory) : Prop :=
  m.Pairwise (fun c d => c.1 < d.1) ∧ ∀ c ∈ m, c.1 < Config.memSize ∧ c.2 ≠ resetByte c.1

end Sys2Proof.Machine
end

