-- ==== Sys2Proof/Machine/State.lean ====
section
/-! DEFINITION. The machine's state as plain data, with everything spec/10_state.md gives it, the reasons a
transaction can be refused, and the state after reset (R40, R41). -/

namespace Sys2Proof.Machine

/-- A slot of the input latch (R28). -/
inductive KeyState where
  | released | pressed | justReleased
  deriving DecidableEq, Repr

/-- The machine run-state (R29). -/
inductive RunState where
  | paused | running
  deriving DecidableEq, Repr

/-- The causes of a fault, with what `raise` is given (spec/60_exceptions.md R240). -/
inductive FaultCause where
  | decodeFault
  | stackOverflow
  | stackUnderflow
  /-- with the offending address -/
  | memBounds (addr : Nat)
  /-- with the index -/
  | keyIndex (k : Byte)
  /-- with the sum that does not fit 16 bits -/
  | indexOverflow (sum : Nat)
  deriving DecidableEq, Repr

/-- The fault record (R33): the cause, the word being executed (0 for a fetch fault) and the address it was
fetched from. -/
structure FaultRecord where
  cause : FaultCause
  word : Word
  addr : Word
  deriving DecidableEq, Repr

/-- The display: 32 rows of 64 cells, one intensity byte each; row first (R26). -/
abbrev Display := Vector (Vector Byte Config.dispW) Config.dispH

/-- The state of the core. The last six fields are the model's own. -/
@[ext]
structure State where
  /-- `V[0..15]` (R20) -/
  v : Vector Byte 16
  /-- `I` (R22) -/
  i : Word
  /-- `PC` (R23) -/
  pc : Word
  /-- `SP`, 0..16 (R24) -/
  sp : Fin 17
  /-- `STACK[0..15]` (R24) -/
  stack : Vector Word 16
  /-- `MEM` (R25) -/
  mem : Memory
  /-- `DISP` (R26) -/
  disp : Display
  /-- `DT` (R27) -/
  dt : Byte
  /-- `ST` (R27) -/
  st : Byte
  /-- `KEY[0..15]` (R28) -/
  key : Vector KeyState 16
  /-- `RUN` (R29) -/
  run : RunState
  /-- `TMR_CPU.acc`, seconds (R30) -/
  cpuAcc : Rat
  /-- `TMR_60.acc`, seconds (R30) -/
  tickAcc : Rat
  /-- `SCHIP` (R31) -/
  schip : Bool
  /-- `TRACE` (R31) -/
  trace : Bool
  /-- `RFLICK` (R31) -/
  rflick : Bool
  /-- `CPU_HZ` (R31) -/
  cpuHz : Rat
  /-- `ROM_LEN` (R32) -/
  romLen : Nat
  /-- the most recently inserted ROM, which `reset()` inserts again (R223) -/
  rom : List Byte
  /-- `FAULT` (R33) -/
  fault : Option FaultRecord
  /-- the instruction word being executed; the model's own (log entry 3) -/
  fetchWord : Word
  /-- the address that word was fetched from; the model's own (log entry 3) -/
  fetchAddr : Word
  /-- the output `drew` of the last step (R204); the model's own home for it (log entry 4) -/
  drew : Bool
  /-- the output `shouldBeep` of the last step (R207); the model's own home for it (log entry 4) -/
  beep : Bool
  /-- how many random bytes have been drawn; the model's own (log entry 5) -/
  draws : Nat
  /-- how many steps have run; the model's own (log entry 6) -/
  steps : Nat
  deriving DecidableEq, Repr

/-- The reasons a step could stop outside the spec. There are none: every fault of the spec is a NEXT state with
`FAULT` set (R248, R209), raised by `raise` of Machine/Ops.lean, so no one raises a value of this type (safe,
log entry 7). -/
inductive Fault where
  deriving DecidableEq, Repr

/-- The reasons a transaction is refused. -/
inductive Refusal where
  /-- an arm of `exec` whose instruction has no meaning yet; no arm is left so (safe) -/
  | notModelled (mnemonic : String)
  /-- `insert_cartridge` with more than 3584 bytes, which R222 puts outside the interface (safe, log entry 14) -/
  | romTooLong
  /-- `new` or `change_clock` with a frequency that is not positive, outside the interface by R221, R225 (safe,
  log entry 14) -/
  | clockNotPositive
  /-- `step` with a negative `elapsed`, outside the interface by R231 (safe, log entry 14) -/
  | elapsedNegative
  deriving DecidableEq, Repr

/-- The state after construction with a clock frequency and a quirk mode, before any cartridge (R41, R40). -/
def State.construct (cpuHz : Rat) (schip : Bool) : State where
  v := Vector.replicate 16 0
  i := 0
  pc := 0x200#16
  sp := 0
  stack := Vector.replicate 16 0
  mem := []
  disp := Vector.replicate Config.dispH (Vector.replicate Config.dispW 0)
  dt := 0
  st := 0
  key := Vector.replicate 16 .released
  run := .paused
  cpuAcc := 0
  tickAcc := 0
  schip := schip
  trace := false
  rflick := false
  cpuHz := cpuHz
  romLen := 0
  rom := []
  fault := none
  fetchWord := 0
  fetchAddr := 0
  drew := false
  beep := false
  draws := 0
  steps := 0

/-- The machine right after reset: the power-on state of R41, constructed with the clock and quirk mode that log
entries 1 and 2 name (DESIGN CHOICE, unsafe). -/
def State.reset : State := State.construct Config.resetCpuHz Config.resetSchip

end Sys2Proof.Machine
end

