-- ==== Sys2Proof/Machine/Ops.lean ====
section
/-! DEFINITION. The named operations over registers, stack, memory, display and key latch, and taking a fault.
There is no return from a fault (spec/60_exceptions.md R250): only a cartridge insertion or a reset leaves the
faulted state (Machine/HostInterface.lean). -/

namespace Sys2Proof.Machine

/-- `VF`, the only flag (spec/10_state.md R21). -/
abbrev vf : RegIdx := 0xF#4

/-- `V[x]` (R20). -/
def State.reg (s : State) (x : RegIdx) : Byte := s.v[x.toNat]'(by have := x.isLt; omega)

/-- `V[x] <- b`. -/
def State.setReg (s : State) (x : RegIdx) (b : Byte) : State :=
  { s with v := s.v.set x.toNat b (by have := x.isLt; omega) }

/-- `I <- a`. -/
def State.setI (s : State) (a : Word) : State := { s with i := a }

/-- `PC <- a`. -/
def State.setPc (s : State) (a : Word) : State := { s with pc := a }

/-- `SP <- n`. -/
def State.setSp (s : State) (n : Fin 17) : State := { s with sp := n }

/-- `STACK <- k`. -/
def State.setStack (s : State) (k : Vector Word 16) : State := { s with stack := k }

/-- `MEM <- m`. -/
def State.setMem (s : State) (m : Memory) : State := { s with mem := m }

/-- `DISP <- d`. -/
def State.setDisp (s : State) (d : Display) : State := { s with disp := d }

/-- `DT <- b`. -/
def State.setDt (s : State) (b : Byte) : State := { s with dt := b }

/-- `ST <- b`. -/
def State.setSt (s : State) (b : Byte) : State := { s with st := b }

/-- `KEY <- k`. -/
def State.setKeys (s : State) (k : Vector KeyState 16) : State := { s with key := k }

/-- `RUN <- r`. -/
def State.setRun (s : State) (r : RunState) : State := { s with run := r }

/-- `TMR_CPU.acc <- c; TMR_60.acc <- t`. -/
def State.setAccs (s : State) (c t : Rat) : State := { s with cpuAcc := c, tickAcc := t }

/-- `FAULT <- r`. -/
def State.setFault (s : State) (r : Option FaultRecord) : State := { s with fault := r }

/-- The instruction latch: the word being executed and its address. -/
def State.setFetched (s : State) (w a : Word) : State := { s with fetchWord := w, fetchAddr := a }

/-- The output `drew`. -/
def State.setDrew (s : State) (b : Bool) : State := { s with drew := b }

/-- The outputs `{drew, shouldBeep}` of a step. -/
def State.setOutputs (s : State) (d b : Bool) : State := { s with drew := d, beep := b }

/-- One more random byte has been drawn. -/
def State.countDraw (s : State) : State := { s with draws := s.draws + 1 }

/-- One more step has run. -/
def State.countStep (s : State) : State := { s with steps := s.steps + 1 }

/-- `KEY[k]` (R28). -/
def State.keyAt (s : State) (k : RegIdx) : KeyState := s.key[k.toNat]'(by have := k.isLt; omega)

/-- `KEY[k] <- q`. -/
def State.setKey (s : State) (k : RegIdx) (q : KeyState) : State :=
  s.setKeys (s.key.set k.toNat q (by have := k.isLt; omega))

/-- Fault entry (spec/60_exceptions.md R248): the record of the cause, the word being executed and its address is
latched; nothing else changes, so what the instruction wrote before stays. -/
def raise (c : FaultCause) (s : State) : State :=
  s.setFault (some ⟨c, s.fetchWord, s.fetchAddr⟩)

/-- The code of a cause (R240). -/
def FaultCause.code : FaultCause → Nat
  | .decodeFault => 1
  | .stackOverflow => 2
  | .stackUnderflow => 3
  | .memBounds _ => 4
  | .keyIndex _ => 5
  | .indexOverflow _ => 6

/-- `MemRead(addr, 1)` (spec/00_scope.md R10). -/
def memRead (a : Nat) (s : State) : Except FaultCause Byte :=
  if a > 0xFFF then .error (.memBounds a) else .ok (s.mem.read a)

/-- `MemWrite(addr, 1, b)` (R10). -/
def memWrite (a : Nat) (b : Byte) (s : State) : Except FaultCause State :=
  if a > 0xFFF then .error (.memBounds a) else .ok (s.setMem (s.mem.write a b))

/-- Push on the return stack (R24). -/
def push (a : Word) (s : State) : Except FaultCause State :=
  if h : s.sp.val < 16 then
    .ok ((s.setStack (s.stack.set s.sp.val a h)).setSp ⟨s.sp.val + 1, by omega⟩)
  else .error .stackOverflow

/-- Pop from the return stack: the popped value, and the state with `SP` one lower; the slot keeps its value
(R24). -/
def pop (s : State) : Except FaultCause (Word × State) :=
  if h : s.sp.val = 0 then .error .stackUnderflow
  else .ok (s.stack[s.sp.val - 1]'(by omega), s.setSp ⟨s.sp.val - 1, by omega⟩)

/-- Step over one more instruction (spec/40_flow.md R108) when the condition holds. -/
def skipIf (c : Bool) (s : State) : State := if c then s.setPc (s.pc + 2) else s

/-- `DISP[x,y]` of a grid (R26); off the grid there is no cell, and no rule reads one. -/
def Display.get (d : Display) (x y : Nat) : Byte :=
  if h : x < Config.dispW ∧ y < Config.dispH then (d[y]'h.2)[x]'h.1 else 0

/-- `DISP[x,y] <- b` on a grid. -/
def Display.set (d : Display) (x y : Nat) (b : Byte) : Display :=
  if h : x < Config.dispW ∧ y < Config.dispH then Vector.set d y (Vector.set (d[y]'h.2) x b h.1) h.2 else d

/-- The grid with every cell 0. -/
def Display.blank : Display := Vector.replicate Config.dispH (Vector.replicate Config.dispW 0)

/-- `DISP[x,y]` (R9 of spec/00_scope.md). -/
def State.cell (s : State) (x y : Nat) : Byte := Display.get s.disp x y

/-- `on(x,y)`: the logical framebuffer (R26). -/
def State.on (s : State) (x y : Nat) : Bool := s.cell x y == 255#8

/-- All logical key numbers, ascending. -/
def allKeys : List RegIdx := [0, 1, 2, 3, 4, 5, 6, 7, 8, 9, 10, 11, 12, 13, 14, 15]

/-- One random byte (R12 of spec/00_scope.md): a free value. -/
def State.rand (s : State) : Byte := Config.randByte s.draws

end Sys2Proof.Machine
end

