-- ==== Sys2Proof/Machine/Flags.lean ====
section
/-! DEFINITION. Every flag computation, and the order of result and flag (spec/10_state.md R21, spec/41_alu.md R132,
R133, spec/44_index_memory.md R181). `VF` is the only flag. -/

namespace Sys2Proof.Machine

/-- A flag as the byte written to `VF`. -/
def flagByte (b : Bool) : Byte := if b then 1 else 0

/-- The 9-bit sum of two bytes (R126). -/
def wideSum (a b : Byte) : BitVec 9 := a.setWidth 9 + b.setWidth 9

/-- The carry out of bit 7 (R126, R132). -/
def carryOut (a b : Byte) : Bool := (wideSum a b).getLsbD 8

/-- No borrow: minuend at least subtrahend, unsigned (R127, R129, R132). -/
def notBorrow (a b : Byte) : Bool := b.toNat ≤ a.toNat

/-- The bit a right shift by one shifts out (R128). -/
def shiftedOutRight (a : Byte) : Bool := a.getLsbD 0

/-- The bit a left shift by one shifts out (R130). -/
def shiftedOutLeft (a : Byte) : Bool := a.getLsbD 7

/-- `VF <- flag`. -/
def State.setFlag (s : State) (b : Bool) : State := s.setReg vf (flagByte b)

/-- Result first, then the flag (R21, R133). -/
def writeResultFlag (x : RegIdx) (r : Byte) (flag : Bool) (s : State) : State :=
  (s.setReg x r).setFlag flag

/-- The result of a bitwise operation: legacy mode clears `VF` after it (R123, R124, R125). -/
def writeLogic (x : RegIdx) (r : Byte) (s : State) : State :=
  if s.schip then s.setReg x r else (s.setReg x r).setFlag false

/-- `VF` after `ADD I,Vx` for the new `I`: 1 at 4096 or above; below, `ADDI_VF_CLEAR` says whether `VF` is cleared or
left (R181, log entry 9). -/
def indexFlag (sum : Nat) (old : Byte) : Byte :=
  if sum ≥ Config.memSize then 1
  else if Config.addiVfClear then 0
  else old

/-- The write of that flag; where `VF` is left, it is written with the value it holds. -/
def writeIndexFlag (sum : Nat) (s : State) : State := s.setReg vf (indexFlag sum (s.reg vf))

end Sys2Proof.Machine
end

