-- ==== Sys2Proof/Machine/Operands.lean ====
section
/-! DEFINITION. The operand forms: which register or address an instruction takes, where that is more than a field
of its word (spec/40_flow.md R107, spec/41_alu.md R128 and R130, spec/42_display.md R142, spec/44_index_memory.md
R182, R183, R186). -/

namespace Sys2Proof.Machine

/-- The source of a shift: `V[X]` in `SCHIP` mode, `V[Y]` in legacy mode (R128, R130). -/
def shiftSource (x y : RegIdx) (s : State) : Byte := if s.schip then s.reg x else s.reg y

/-- The target of a jump with offset: `V[X]` or `V[0]` plus the address, 16 bits, not masked (R107). -/
def jumpTarget (x : RegIdx) (addr : Addr12) (s : State) : Word :=
  (if s.schip then s.reg x else s.reg 0#4).setWidth 16 + addr.setWidth 16

/-- The effective address `I + n`, a natural number, neither wrapped nor masked (R186). -/
def dataAddr (n : Nat) (s : State) : Nat := s.i.toNat + n

/-- The address of byte `n` of a register block transfer in progress: `I + n` in `SCHIP` mode, where `I` stays,
and `I` in legacy mode, where `I` has already advanced by `n` (R184, R185). -/
def blockAddr (n : Nat) (s : State) : Nat := dataAddr (if s.schip then n else 0) s

/-- The step of `I` after one byte of a register block transfer: legacy mode only (R184, R185). -/
def blockAdvance (s : State) : State := if s.schip then s else s.setI (s.i + 1)

/-- The address of the glyph for the low nibble of a byte (R182). -/
def glyphAddr (b : Byte) : Word :=
  BitVec.ofNat 16 (Config.fontBase.val + Config.glyphBytes * (b &&& 0x0F#8).toNat)

/-- The significant decimal digits of a byte, most significant first (R183). -/
def decimalDigits (b : Byte) : List Byte :=
  let hundreds := BitVec.ofNat 8 (b.toNat / 100)
  let tens := BitVec.ofNat 8 (b.toNat / 10 % 10)
  let ones := BitVec.ofNat 8 (b.toNat % 10)
  if b.toNat ≥ 100 then [hundreds, tens, ones]
  else if b.toNat ≥ 10 then [tens, ones]
  else [ones]

/-- The start column of a sprite: the register masked to the display width (R142). -/
def startColumn (b : Byte) : Nat := (b &&& BitVec.ofNat 8 (Config.dispW - 1)).toNat

/-- The start row of a sprite: the register masked to the display height (R142). -/
def startRow (b : Byte) : Nat := (b &&& BitVec.ofNat 8 (Config.dispH - 1)).toNat

/-- The column of bit `c` of a sprite row: clamped to the last column (R145). -/
def bitColumn (x0 c : Nat) : Nat := min (x0 + c) (Config.dispW - 1)

/-- The key named by a register, if it is one of the 16 (spec/43_keys_timers.md R160, R161). -/
def keyOperand (b : Byte) : Except FaultCause RegIdx :=
  if b.toNat > 15 then .error (.keyIndex b) else .ok (b.setWidth 4)

/-- The lowest key whose slot holds `JustReleased` (R162). -/
def firstReleased (s : State) : Option RegIdx := allKeys.find? (fun k => s.keyAt k == .justReleased)

end Sys2Proof.Machine
end

