-- ==== Sys2Proof/Machine/Alu.lean ====
section
/-! DEFINITION. Register load, arithmetic, logic, shift, random (spec/41_alu.md R120 to R133). -/

namespace Sys2Proof.Machine

/-- `LD Vx,K` (R120). -/
def execLdK (x : RegIdx) (k : Byte) (s : State) : Host.Outcome State Fault Refusal :=
  .next (s.setReg x k)

/-- `ADD Vx,K` (R121): no flag. -/
def execAddK (x : RegIdx) (k : Byte) (s : State) : Host.Outcome State Fault Refusal :=
  .next (s.setReg x (s.reg x + k))

/-- `LD Vx,Vy` (R122): no flag (spec/90_conflicts.md C3). -/
def execLdReg (x y : RegIdx) (s : State) : Host.Outcome State Fault Refusal :=
  .next (s.setReg x (s.reg y))

/-- `OR Vx,Vy` (R123). -/
def execOrReg (x y : RegIdx) (s : State) : Host.Outcome State Fault Refusal :=
  .next (writeLogic x (s.reg x ||| s.reg y) s)

/-- `AND Vx,Vy` (R124). -/
def execAndReg (x y : RegIdx) (s : State) : Host.Outcome State Fault Refusal :=
  .next (writeLogic x (s.reg x &&& s.reg y) s)

/-- `XOR Vx,Vy` (R125). -/
def execXorReg (x y : RegIdx) (s : State) : Host.Outcome State Fault Refusal :=
  .next (writeLogic x (s.reg x ^^^ s.reg y) s)

/-- `ADD Vx,Vy` (R126). -/
def execAddReg (x y : RegIdx) (s : State) : Host.Outcome State Fault Refusal :=
  .next (writeResultFlag x ((wideSum (s.reg x) (s.reg y)).setWidth 8) (carryOut (s.reg x) (s.reg y)) s)

/-- `SUB Vx,Vy` (R127). -/
def execSubReg (x y : RegIdx) (s : State) : Host.Outcome State Fault Refusal :=
  .next (writeResultFlag x (s.reg x - s.reg y) (notBorrow (s.reg x) (s.reg y)) s)

/-- `SHR Vx,Vy` (R128). -/
def execShrReg (x y : RegIdx) (s : State) : Host.Outcome State Fault Refusal :=
  .next (writeResultFlag x (shiftSource x y s >>> 1) (shiftedOutRight (shiftSource x y s)) s)

/-- `SUBN Vx,Vy` (R129). -/
def execSubnReg (x y : RegIdx) (s : State) : Host.Outcome State Fault Refusal :=
  .next (writeResultFlag x (s.reg y - s.reg x) (notBorrow (s.reg y) (s.reg x)) s)

/-- `SHL Vx,Vy` (R130). -/
def execShlReg (x y : RegIdx) (s : State) : Host.Outcome State Fault Refusal :=
  .next (writeResultFlag x (shiftSource x y s <<< 1) (shiftedOutLeft (shiftSource x y s)) s)

/-- `RND Vx,K` (R131): exactly one draw. -/
def execRnd (x : RegIdx) (k : Byte) (s : State) : Host.Outcome State Fault Refusal :=
  .next ((s.setReg x (s.rand &&& k)).countDraw)

end Sys2Proof.Machine
end

