-- ==== Sys2Proof/Machine/Display.lean ====
section
/-! DEFINITION. The display instructions and the sprite-blit XOR engine (spec/42_display.md R140 to R150). -/

namespace Sys2Proof.Machine

/-- `OffValue(old)` (R149): what a cell that ends not full-on holds. -/
def offValue (trace : Bool) (old : Byte) : Byte :=
  if trace then BitVec.ofNat 8 (Config.traceFn old).val else 0

/-- What a blit has done so far: the grid, whether a cell went from full-on to not full-on (R147), and whether one
became full-on (R148). -/
structure Blit where
  grid : Display
  hit : Bool
  new : Bool
  deriving DecidableEq, Repr

/-- One sprite bit applied to cell `(x, y)` (R146, R147). -/
def blitBit (trace : Bool) (x y : Nat) (bit : Bool) (b : Blit) : Blit :=
  let old := Display.get b.grid x y
  let wasOn := old == 255#8
  let nowOn := xor wasOn bit
  { grid := Display.set b.grid x y (if nowOn then 255#8 else offValue trace old)
    hit := b.hit || (wasOn && !nowOn)
    new := b.new || (nowOn && !wasOn) }

/-- Bits `c`, `c + 1`, … of a sprite row, `count` of them, most significant bit of the byte first (R145). -/
def blitBits (trace : Bool) (x0 y : Nat) (row : Byte) : (count c : Nat) → Blit → Blit
  | 0, _, b => b
  | count + 1, c, b =>
    blitBits trace x0 y row count (c + 1) (blitBit trace (bitColumn x0 c) y (row.getLsbD (7 - c)) b)

/-- One sprite row: 8 bits from column `x0` (R145). -/
def blitRow (trace : Bool) (x0 y : Nat) (row : Byte) (b : Blit) : Blit :=
  blitBits trace x0 y row 8 0 b

/-- Sprite rows `r`, `r + 1`, … , `count` of them: the bottom clip comes before the read of the row's byte (R144);
a read out of bounds ends the blit with what it has done. -/
def blitRows (s : State) (x0 y0 : Nat) : (count r : Nat) → Blit → Blit × Option FaultCause
  | 0, _, b => (b, none)
  | count + 1, r, b =>
    if y0 + r ≥ Config.dispH then (b, none)
    else
      match memRead (dataAddr r s) s with
      | .error c => (b, some c)
      | .ok row => blitRows s x0 y0 count (r + 1) (blitRow s.trace x0 (y0 + r) row b)

/-- The state after a blit: the grid and `VF` as the blit left them, and `drew` (R148) unless it faulted. -/
def finishBlit (s : State) : Blit × Option FaultCause → State
  | (b, none) =>
    ((s.setDisp b.grid).setFlag b.hit).setDrew (if s.rflick then b.new else true)
  | (b, some c) => raise c ((s.setDisp b.grid).setFlag b.hit)

/-- `DRW Vx,Vy,N` (R141): the coordinates are read before `VF` is cleared (R142, R143). -/
def execDrw (x y : RegIdx) (n : BitVec 4) (s : State) : Host.Outcome State Fault Refusal :=
  .next (finishBlit s
    (blitRows s (startColumn (s.reg x)) (startRow (s.reg y)) n.toNat 0 ⟨s.disp, false, false⟩))

/-- `CLS` (R140). -/
def execCls (s : State) : Host.Outcome State Fault Refusal :=
  .next ((s.setDisp Display.blank).setDrew false)

end Sys2Proof.Machine
end

