-- ==== Sys2Proof/Machine/Flow.lean ====
section
/-! DEFINITION. Control transfer (spec/40_flow.md R100 to R108). `pc` on entry is the instruction's address plus 2
(spec/00_scope.md R13). -/

namespace Sys2Proof.Machine

/-- `RET` (R100, fault R243). -/
def execRet (s : State) : Host.Outcome State Fault Refusal :=
  .next (match pop s with
    | .error c => raise c s
    | .ok (a, t) => t.setPc a)

/-- `JP ADDR` (R101). -/
def execJp (addr : Addr12) (s : State) : Host.Outcome State Fault Refusal :=
  .next (s.setPc (addr.setWidth 16))

/-- `CALL ADDR` (R102, fault R242): the pushed value is the address of the next instruction. -/
def execCall (addr : Addr12) (s : State) : Host.Outcome State Fault Refusal :=
  .next (match push s.pc s with
    | .error c => raise c s
    | .ok t => t.setPc (addr.setWidth 16))

/-- `SE Vx,K` (R103). -/
def execSeK (x : RegIdx) (k : Byte) (s : State) : Host.Outcome State Fault Refusal :=
  .next (skipIf (s.reg x == k) s)

/-- `SNE Vx,K` (R104). -/
def execSneK (x : RegIdx) (k : Byte) (s : State) : Host.Outcome State Fault Refusal :=
  .next (skipIf (s.reg x != k) s)

/-- `SE Vx,Vy` (R105). -/
def execSeReg (x y : RegIdx) (s : State) : Host.Outcome State Fault Refusal :=
  .next (skipIf (s.reg x == s.reg y) s)

/-- `SNE Vx,Vy` (R106). -/
def execSneReg (x y : RegIdx) (s : State) : Host.Outcome State Fault Refusal :=
  .next (skipIf (s.reg x != s.reg y) s)

/-- `JP V0,ADDR` (R107). -/
def execJpV0 (x : RegIdx) (addr : Addr12) (s : State) : Host.Outcome State Fault Refusal :=
  .next (s.setPc (jumpTarget x addr s))

end Sys2Proof.Machine
end

