-- ==== Sys2Proof/Machine/IndexMemory.lean ====
section
/-! DEFINITION. Index-register and memory instructions (spec/44_index_memory.md R180 to R186). -/

namespace Sys2Proof.Machine

/-- Bytes stored at `a`, `a + 1`, … in ascending order; the first address out of bounds faults and what was stored
before stays (R56, R57 of spec/20_memory.md, R248 of spec/60_exceptions.md). -/
def storeBytes : Nat → List Byte → State → State
  | _, [], s => s
  | a, b :: bs, s =>
    match memWrite a b s with
    | .error c => raise c s
    | .ok t => storeBytes (a + 1) bs t

/-- Registers `n`, `n + 1`, … , `count` of them, stored in ascending order (R184). -/
def storeBlock : (count n : Nat) → State → State
  | 0, _, s => s
  | count + 1, n, s =>
    match memWrite (blockAddr n s) (s.reg (BitVec.ofNat 4 n)) s with
    | .error c => raise c s
    | .ok t => storeBlock count (n + 1) (blockAdvance t)

/-- Registers `n`, `n + 1`, … , `count` of them, loaded in ascending order (R185). -/
def loadBlock : (count n : Nat) → State → State
  | 0, _, s => s
  | count + 1, n, s =>
    match memRead (blockAddr n s) s with
    | .error c => raise c s
    | .ok b => loadBlock count (n + 1) (blockAdvance (s.setReg (BitVec.ofNat 4 n) b))

/-- `LD I,ADDR` (R180). -/
def execLdI (addr : Addr12) (s : State) : Host.Outcome State Fault Refusal :=
  .next (s.setI (addr.setWidth 16))

/-- `ADD I,Vx` (R181, fault R246): on the fault neither `I` nor `VF` is written. -/
def execAddI (x : RegIdx) (s : State) : Host.Outcome State Fault Refusal :=
  .next (
    let sum := s.i.toNat + (s.reg x).toNat
    if sum > 0xFFFF then raise (.indexOverflow sum) s
    else writeIndexFlag sum (s.setI (BitVec.ofNat 16 sum)))

/-- `LD F,Vx` (R182). -/
def execLdF (x : RegIdx) (s : State) : Host.Outcome State Fault Refusal :=
  .next (s.setI (glyphAddr (s.reg x)))

/-- `LD B,Vx` (R183): only the significant digits, packed from `I` upward. -/
def execLdB (x : RegIdx) (s : State) : Host.Outcome State Fault Refusal :=
  .next (storeBytes (dataAddr 0 s) (decimalDigits (s.reg x)) s)

/-- `LD [I],Vx` (R184). -/
def execStoreRegs (x : RegIdx) (s : State) : Host.Outcome State Fault Refusal :=
  .next (storeBlock (x.toNat + 1) 0 s)

/-- `LD Vx,[I]` (R185). -/
def execLoadRegs (x : RegIdx) (s : State) : Host.Outcome State Fault Refusal :=
  .next (loadBlock (x.toNat + 1) 0 s)

end Sys2Proof.Machine
end

