-- ==== Sys2Proof/Machine/KeysTimers.lean ====
section
/-! DEFINITION. Key-latch and timer instructions (spec/43_keys_timers.md R160 to R165). -/

namespace Sys2Proof.Machine

/-- `SKP Vx` (R160, fault R245). -/
def execSkp (x : RegIdx) (s : State) : Host.Outcome State Fault Refusal :=
  .next (match keyOperand (s.reg x) with
    | .error c => raise c s
    | .ok k => skipIf (s.keyAt k == .pressed) s)

/-- `SKNP Vx` (R161, fault R245). -/
def execSknp (x : RegIdx) (s : State) : Host.Outcome State Fault Refusal :=
  .next (match keyOperand (s.reg x) with
    | .error c => raise c s
    | .ok k => skipIf (s.keyAt k != .pressed) s)

/-- `LD Vx,KEY` (R162): takes the lowest `JustReleased` slot, or puts `PC` back to the instruction itself. -/
def execLdVxKey (x : RegIdx) (s : State) : Host.Outcome State Fault Refusal :=
  .next (match firstReleased s with
    | some k => (s.setKey k .released).setReg x (k.setWidth 8)
    | none => s.setPc (s.pc - 2))

/-- `LD Vx,DT` (R163). -/
def execLdVxDt (x : RegIdx) (s : State) : Host.Outcome State Fault Refusal :=
  .next (s.setReg x s.dt)

/-- `LD DT,Vx` (R164). -/
def execLdDtVx (x : RegIdx) (s : State) : Host.Outcome State Fault Refusal :=
  .next (s.setDt (s.reg x))

/-- `LD ST,Vx` (R165). -/
def execLdStVx (x : RegIdx) (s : State) : Host.Outcome State Fault Refusal :=
  .next (s.setSt (s.reg x))

end Sys2Proof.Machine
end

