-- ==== Sys2Proof/Machine/Cycle.lean ====
section
/-! DEFINITION. The dual-rate step controller and the fetch-execute cycle (spec/45_step_cycle.md R200 to R212). -/

namespace Sys2Proof.Machine

/-- The period of `TMR_CPU`, seconds (spec/10_state.md R30). -/
def State.cpuPeriod (s : State) : Rat := 1 / s.cpuHz

/-- Whether an interval timer fires: once, however many periods pass (R201). -/
def timerFired (acc elapsed period : Rat) : Bool := decide (period ≤ acc + elapsed)

/-- The accumulator after a step: the total modulo the period (R201, D31). -/
def timerRemainder (acc elapsed period : Rat) : Rat :=
  (acc + elapsed) - period * (((acc + elapsed) / period).floor : Rat)

/-- Both interval timers advance on every step (R201). -/
def advanceTimers (elapsed : Rat) (s : State) : State :=
  s.setAccs (timerRemainder s.cpuAcc elapsed s.cpuPeriod) (timerRemainder s.tickAcc elapsed Config.tickPeriod)

/-- `do_exec` (R202). -/
def doExec (elapsed : Rat) (s : State) : Bool :=
  s.run == .paused || timerFired s.cpuAcc elapsed s.cpuPeriod

/-- `do_tick` (R206). -/
def doTick (elapsed : Rat) (s : State) : Bool :=
  s.run == .paused || timerFired s.tickAcc elapsed Config.tickPeriod

/-- The word at address `a`, big-endian, lower byte read first: `MemRead(a, 2)` (R10 of spec/00_scope.md, R54 of
spec/20_memory.md). -/
def memReadWord (a : Nat) (s : State) : Except FaultCause Word :=
  match memRead a s with
  | .error c => .error c
  | .ok hi =>
    match memRead (a + 1) s with
    | .error c => .error c
    | .ok lo => .ok (wordOfBytes hi lo)

/-- Fetch (R203): `PC` advances only when both bytes are read. -/
def fetch (s : State) : Except FaultCause State :=
  match memReadWord s.pc.toNat s with
  | .error c => .error c
  | .ok w => .ok ((s.setFetched w s.pc).setPc (s.pc + 2))

/-- Execute the fetched word (R204): an illegal word raises `DecodeFault` (R241 of spec/60_exceptions.md). -/
def executeFetched (s : State) : Host.Outcome State Fault Refusal :=
  match decodeWord s.fetchWord with
  | .error _ => .next (raise .decodeFault s)
  | .ok i => exec i s

/-- Fetch, then execute; a fetch fault records word 0 and the address, and leaves `PC` (R203, R248). -/
def fetchExecute (s : State) : Host.Outcome State Fault Refusal :=
  match fetch s with
  | .error c => .next (raise c (s.setFetched 0 s.pc))
  | .ok t => executeFetched t

/-- What the sweep makes of one slot (R205). -/
def sweepSlot : KeyState → KeyState
  | .justReleased => .released
  | .pressed => .pressed
  | .released => .released

/-- The sweep of the key latch (R205). -/
def sweepKeys (k : Vector KeyState 16) : Vector KeyState 16 :=
  ⟨⟨k.toList.map sweepSlot⟩, by simp⟩

/-- The sweep runs after every execute that completes without fault, and only then (R205). -/
def sweepAfter (s : State) : State :=
  if s.fault.isSome then s else s.setKeys (sweepKeys s.key)

/-- `max(b - 1, 0)` (R206). -/
def countDown (b : Byte) : Byte := if b = 0 then 0 else b - 1

/-- The 60 Hz tick of `DT` and `ST` (R206). -/
def tickDown (s : State) : State := (s.setDt (countDown s.dt)).setSt (countDown s.st)

/-- `shouldBeep` (R207), on the value of `ST` after the tick. -/
def shouldBeep (s : State) : Bool := s.run == .running && s.st != 0

/-- Phases 3 and 4 of a step (R208); on a fault neither runs and the outputs are false (R209). -/
def finishStep (tick : Bool) (s : State) : State :=
  if s.fault.isSome then s.setOutputs false false
  else
    let t := if tick then tickDown s else s
    t.setOutputs t.drew (shouldBeep t)

/-- The timers of a step advanced, and `drew` false until an instruction says otherwise (R201, R204). -/
def beginStep (elapsed : Rat) (s : State) : State :=
  ((advanceTimers elapsed s).countStep).setDrew false

/-- A function applied to the next state, if there is one. -/
def mapNext (f : State → State) : Host.Outcome State Fault Refusal → Host.Outcome State Fault Refusal
  | .next s => .next (f s)
  | .fault r => .fault r
  | .refused r => .refused r

/-- The transaction `step(elapsed)` (R200, R208): on a faulted machine no state changes and the outputs are false
(R209); otherwise timers, then fetch, execute and sweep if due, then the tick if due, then the outputs. -/
def cycle (elapsed : Rat) (s : State) : Host.Outcome State Fault Refusal :=
  if s.fault.isSome then .next (s.setOutputs false false)
  else if doExec elapsed s then
    mapNext (fun t => finishStep (doTick elapsed s) (sweepAfter t)) (fetchExecute (beginStep elapsed s))
  else .next (finishStep (doTick elapsed s) (beginStep elapsed s))

/-- The two bytes of a word stored where the next fetch reads them; a `PC` that no word fits at is first set to
`LOAD_ADDR`. -/
def placeWord (w : Word) (s : State) : State :=
  let t := if s.pc.toNat > 0xFFE then s.setPc (BitVec.ofNat 16 Config.loadAddr) else s
  t.setMem ((t.mem.write t.pc.toNat (w.extractLsb' 8 8)).write (t.pc.toNat + 1) (w.extractLsb' 0 8))

end Sys2Proof.Machine
end

