-- ==== Sys2Proof/Machine/Step.lean ====
section
/-! DEFINITION. The machine's step, with the host's `elapsed` a free value (spec/45_step_cycle.md R200, R212), and the
placing of one instruction where the next fetch reads it. -/

namespace Sys2Proof.Machine

/-- One step: `step(elapsed)` for the `elapsed` that the host passes to this step, a free non-negative rational
(log entry 6). -/
def step (s : State) : Host.Outcome State Fault Refusal :=
  cycle (Config.elapsed s.steps).val s

/-- `s` with an instruction stored where the next step fetches it. The step fetches on every call only while the core
is `Paused` and not faulted (R202, R209), so those two are set as well (log entry 15). -/
def State.withFetchWord (s : State) (nbits w : Nat) : State :=
  placeWord (tableWord nbits w) ((s.setFault none).setRun .paused)

end Sys2Proof.Machine
end

