-- ==== Sys2Proof/Machine/HostInterface.lean ====
section
/-! DEFINITION. The host's transactions on the core (spec/46_host_interface.md R220 to R231, spec/42_display.md R151,
spec/70_reset_and_hazards.md R270 to R272). -/

namespace Sys2Proof.Machine

/-- A transaction of the host (R220). A key index is one of the 16 by type (R227). -/
inductive Transaction where
  | step (elapsed : Rat)
  | insertCartridge (bytes : List Byte)
  | reset
  | pause
  | run
  | changeClock (hz : Rat)
  | setTrace (b : Bool)
  | setReduceFlicker (b : Bool)
  | keyWrite (k : RegIdx) (q : KeyState)
  /-- the decay pass, with the intensities it would leave -/
  | decay (faded : Display)
  deriving DecidableEq, Repr

/-- Construction (R221); a frequency that is not positive is outside the interface. -/
def new (cpuHz : Rat) (schip : Bool) : Host.Outcome State Fault Refusal :=
  if cpuHz ≤ 0 then .refused .clockNotPositive else .next (State.construct cpuHz schip)

/-- The reset procedure with a ROM (R271, R272): everything R40 lists takes its reset value, and `SCHIP`, `TRACE`,
`RFLICK`, `CPU_HZ` keep theirs. The counters of the free values go on, so that no free value is used twice. -/
def resetWith (bytes : List Byte) (s : State) : State :=
  { State.construct s.cpuHz s.schip with
    trace := s.trace
    rflick := s.rflick
    mem := Memory.writeBytes [] Config.loadAddr bytes
    romLen := bytes.length
    rom := bytes
    draws := s.draws
    steps := s.steps }

/-- `insert_cartridge(bytes)` (R222); more than 3584 bytes are outside the interface. -/
def insertCartridge (bytes : List Byte) (s : State) : Host.Outcome State Fault Refusal :=
  if bytes.length > Config.romMax then .refused .romTooLong else .next (resetWith bytes s)

/-- `change_clock(hz)` (R225): nothing if unchanged, else the new frequency and the accumulator 0. -/
def changeClock (hz : Rat) (s : State) : Host.Outcome State Fault Refusal :=
  if hz ≤ 0 then .refused .clockNotPositive
  else if hz = s.cpuHz then .next s
  else .next { s with cpuHz := hz, cpuAcc := 0 }

/-- What the decay pass leaves in a cell (R151): a value in 1..254 may become any value in 0..254; 0 and 255 stay, and
255 is never produced. -/
def decayCell (old faded : Byte) : Byte := if old = 0 ∨ old = 255#8 ∨ faded = 255#8 then old else faded

/-- The decay pass over the whole grid (R151, R230). -/
def decayGrid (d faded : Display) : Display :=
  Vector.ofFn fun y => Vector.ofFn fun x => decayCell (Display.get d x.val y.val) (Display.get faded x.val y.val)

/-- One transaction (R220). -/
def transact : Transaction → State → Host.Outcome State Fault Refusal
  | .step elapsed, s => if elapsed < 0 then .refused .elapsedNegative else cycle elapsed s
  | .insertCartridge bytes, s => insertCartridge bytes s
  | .reset, s => insertCartridge s.rom s
  | .pause, s => .next (s.setRun .paused)
  | .run, s => .next (s.setRun .running)
  | .changeClock hz, s => changeClock hz s
  | .setTrace b, s => .next { s with trace := b }
  | .setReduceFlicker b, s => .next { s with rflick := b }
  | .keyWrite k q, s => .next (s.setKey k q)
  | .decay faded, s => .next (s.setDisp (decayGrid s.disp faded))

end Sys2Proof.Machine
end

