-- ==== Sys2Proof/Safety.lean ====
section
/-! DEFINITION. What claims are stated in terms of: the invariants of a state, the states a host can bring the core to,
and when a run counts as safe. -/

namespace Sys2Proof.Machine

/-- Memory is in its canonical form. -/
abbrev State.MemoryCanonical (s : State) : Prop := s.mem.wf

/-- No `PC` exceeds 0x10FE and no stack slot 0x1000 (spec/10_state.md R23, spec/40_flow.md R100). -/
abbrev State.PcBounded (s : State) : Prop :=
  s.pc.toNat ≤ 0x10FE ∧ ∀ j : Fin 16, (s.stack[j.val]'j.isLt).toNat ≤ 0x1000

/-- The clock frequency is positive and each accumulator lies below its period (spec/10_state.md R30, R31). -/
abbrev State.TimersInRange (s : State) : Prop :=
  0 < s.cpuHz ∧ (0 ≤ s.cpuAcc ∧ s.cpuAcc < s.cpuPeriod) ∧ (0 ≤ s.tickAcc ∧ s.tickAcc < Config.tickPeriod)

/-- `ROM_LEN` is the length of the last inserted ROM, which fits the program area (spec/10_state.md R32, R222 of
spec/46_host_interface.md). -/
abbrev State.RomRecorded (s : State) : Prop := s.romLen = s.rom.length ∧ s.romLen ≤ Config.romMax

/-- With the trace mode off every cell is 0 or 255 (spec/10_state.md R26). -/
abbrev State.DisplayTwoValued (s : State) : Prop :=
  s.trace = false ∧ ∀ x y : Nat, x < Config.dispW → y < Config.dispH → s.cell x y = 0 ∨ s.cell x y = 255#8

/-- The invariant of every state that transactions lead to. -/
abbrev State.Inv (s : State) : Prop :=
  s.MemoryCanonical ∧ s.PcBounded ∧ s.TimersInRange ∧ s.RomRecorded

/-- The states that construction and any transactions, in any order, lead to (spec/46_host_interface.md R220, R221). -/
inductive Reachable : State → Prop where
  | construct (cpuHz : Rat) (schip : Bool) (s : State) (h : new cpuHz schip = .next s) : Reachable s
  | act (s t : State) (a : Transaction) (hs : Reachable s) (h : transact a s = .next t) : Reachable t

/-- A state in which the core has not halted on a fault; a faulted state is never the end of a good run
(spec/45_step_cycle.md R209). -/
abbrev State.Safe (s : State) : Prop := s.fault = none

/-- The word the next fetch reads, when both its bytes lie in memory (spec/45_step_cycle.md R203). -/
def State.nextWord (s : State) : Word :=
  wordOfBytes (s.mem.read s.pc.toNat) (s.mem.read (s.pc.toNat + 1))

/-- The state in which the fetched word is executed: timers advanced, `PC` past the word, the latch holding the word and
its address (spec/45_step_cycle.md R201, R203). -/
def State.afterFetch (elapsed : Rat) (s : State) : State :=
  ((beginStep elapsed s).setFetched s.nextWord s.pc).setPc (s.pc + 2)

/-- How many rows of a sprite of height `n` with start row `y0` are not clipped at the bottom edge
(spec/42_display.md R144). -/
def shownRows (y0 : Nat) (n : BitVec 4) : Nat := min n.toNat (32 - y0)

/-- Whether an odd number of the 1 bits of a sprite row with start column `x0` go to column `p`; bits past the last column
go to the last column (spec/42_display.md R145, R152). -/
def oddBits (x0 : Nat) (row : Byte) (p : Nat) : Bool :=
  (List.range 8).countP (fun c => decide (min (x0 + c) 63 = p) && row.getLsbD (7 - c)) % 2 == 1

/-- Whether bit `c` of a sprite row with start column `x0` finds its cell on: the cell as it was before the row, toggled by
the earlier 1 bits of the row that go to the same column (spec/42_display.md R146, R147, R152). -/
def findsOn (x0 : Nat) (row : Byte) (before : Nat → Bool) (c : Nat) : Bool :=
  xor (before (min (x0 + c) 63))
    ((List.range c).countP (fun d => decide (min (x0 + d) 63 = min (x0 + c) 63) && row.getLsbD (7 - d)) % 2 == 1)

/-- How many 1 bits of a sprite row with start column `x0` go to the last column (spec/42_display.md R152). -/
def lastColumnBits (x0 : Nat) (row : Byte) : Nat :=
  (List.range 8).countP fun c => decide (min (x0 + c) 63 = 63) && row.getLsbD (7 - c)

/-- The intensities a cell goes through under the bits of a sprite row that go to column `p`, in scan order: 255 when it ends
on, else 0, or `TRACE_FN` of the old intensity in trace mode (spec/42_display.md R145, R146, R149). -/
def intensityAfter (trace : Bool) (x0 : Nat) (row : Byte) (p : Nat) (old : Byte) : Byte :=
  (List.range 8).foldl (init := old) fun v c =>
    if min (x0 + c) 63 ≠ p then v
    else if (v = 255#8) ≠ (row.getLsbD (7 - c) = true) then 255#8
    else if trace then BitVec.ofNat 8 (Config.traceFn v).val
    else 0

/-- The decimal digits of a byte that `LD B,Vx` stores, most significant first (spec/44_index_memory.md R183). -/
def significantDigits (b : Byte) : List Byte :=
  if b.toNat < 10 then [b]
  else if b.toNat < 100 then [b / 10, b % 10]
  else [b / 100, b / 10 % 10, b % 10]

end Sys2Proof.Machine
end

