-- ==== Sys2Proof/Certificates/Slice0/Obligations.lean ====
section
/-! DEFINITION. The statements for the provers. `{ t with f := s.f } = s` says that `t` differs from `s` in field `f` at
most: every other register, flag, timer, key slot, every byte of memory and every display cell is as before. -/

open Sys2Proof Sys2Proof.Machine

/-! ## Encoding -/

/-- Words of each layout of R72, written out from the encodings of spec/30_encoding.md R74 and spec/95_test_vectors.md part
2.1 (the spec's general knowledge, D4, but for 00E0 and 1200: log entry 13; that fixed nibbles are checked: D5). -/
def Obligations.SampleWordsDecode : Prop :=
  decodeWord 0x00E0#16 = .ok .cls ∧ decodeWord 0x1200#16 = .ok (.jp 0x200#12) ∧
  decodeWord 0x6A2C#16 = .ok (.ldK 0xA 0x2C) ∧
  decodeWord 0x5120#16 = .ok (.seReg 1 2) ∧ decodeWord 0x812E#16 = .ok (.shlReg 1 2) ∧
  decodeWord 0xB3FF#16 = .ok (.jpV0 3 0x3FF#12) ∧ decodeWord 0xD122#16 = .ok (.drw 1 2 2) ∧
  decodeWord 0xE3A1#16 = .ok (.sknp 3) ∧ decodeWord 0xF30A#16 = .ok (.ldVxKey 3) ∧
  decodeWord 0xF033#16 = .ok (.ldB 0) ∧ decodeWord 0xF265#16 = .ok (.loadRegs 2) ∧
  decodeWord 0x0000#16 = .error .class0 ∧ decodeWord 0x01E0#16 = .error .class0 ∧
  decodeWord 0x5121#16 = .error .class5 ∧ decodeWord 0x8128#16 = .error .class8 ∧
  decodeWord 0xE19F#16 = .error .classE ∧ decodeWord 0xF130#16 = .error .classF

/-- No operand bit of an encoding is dropped (for the encodings of R74, log entry 13). -/
def Obligations.DecodeOfEncode : Prop :=
  ∀ i : Instr, i.wellFormed = true →
    decodeWord (encode i) = .ok i ∧ ∀ rest, decode (encodeBytes i ++ rest) = .ok (i, rest)

/-- Every word that decodes is the encoding of what it decodes to, and that is well-formed. -/
def Obligations.EncodeOfDecode : Prop :=
  ∀ (w : Word) (i : Instr), decodeWord w = .ok i → encode i = w ∧ i.wellFormed = true

/-- Decoding is total, to one row of R74 or illegal, and no word matches two rows (R75; the spec marks the exclusivity as
derived, and the numbers as general knowledge: log entry 13). -/
def Obligations.DecodeSelectsOneRow : Prop :=
  ∀ w : Word,
    ((∃ e, decodeWord w = .error e) ∧ (∀ r ∈ opcodeMap, (w &&& r.mask) ≠ r.pattern)) ∨
    (∃ i, decodeWord w = .ok i ∧ ∃ r ∈ opcodeMap, r.mnemonic = i.mnemonic ∧
      ∀ q ∈ opcodeMap, (w &&& q.mask) = q.pattern ↔ q = r)

/-- R76's list of the illegal words, in arithmetic on the word (that fixed nibbles are checked is the spec's decision D5). -/
def Obligations.IllegalWordsByClass : Prop :=
  ∀ w : Word, (∃ e, decodeWord w = .error e) ↔
    (w.toNat / 4096 = 0 ∧ w.toNat ≠ 0x00E0 ∧ w.toNat ≠ 0x00EE) ∨
    (w.toNat / 4096 = 5 ∧ w.toNat % 16 ≠ 0) ∨
    (w.toNat / 4096 = 8 ∧ w.toNat % 16 ∈ [0x8, 0x9, 0xA, 0xB, 0xC, 0xD, 0xF]) ∨
    (w.toNat / 4096 = 9 ∧ w.toNat % 16 ≠ 0) ∨
    (w.toNat / 4096 = 0xE ∧ w.toNat % 256 ∉ [0x9E, 0xA1]) ∨
    (w.toNat / 4096 = 0xF ∧
      w.toNat % 256 ∉ [0x07, 0x0A, 0x15, 0x18, 0x1E, 0x29, 0x33, 0x55, 0x65])

/-! ## Control transfer -/

/-- `RET` (R100, R243). That the popped slot keeps its value is the spec's decision D7, and what a fault leaves is D23. -/
def Obligations.RetPopsOrUnderflows : Prop :=
  decodeWord 0x00EE#16 = .ok .ret ∧
  ∀ s : State,
    (∀ h : 0 < s.sp.val, ∃ t, exec .ret s = .next t ∧ t.sp.val = s.sp.val - 1 ∧
      t.pc = s.stack[s.sp.val - 1]'(by have := s.sp.isLt; omega) ∧
      { t with sp := s.sp, pc := s.pc } = s) ∧
    (s.sp.val = 0 → ∃ t, exec .ret s = .next t ∧
      t.fault = some ⟨.stackUnderflow, s.fetchWord, s.fetchAddr⟩ ∧ { t with fault := s.fault } = s)

/-- `JP ADDR` (R101). -/
def Obligations.JumpSetsPc : Prop :=
  ∀ a : Addr12, decodeWord (0x1#4 ++ a) = .ok (.jp a) ∧
    ∀ s : State, ∃ t, exec (.jp a) s = .next t ∧ t.pc.toNat = a.toNat ∧ { t with pc := s.pc } = s

/-- `CALL ADDR` (R102, R242). The slot order of the stack is the spec's decision D7, and what a fault leaves is D23. -/
def Obligations.CallPushesOrOverflows : Prop :=
  ∀ a : Addr12, decodeWord (0x2#4 ++ a) = .ok (.call a) ∧
    ∀ s : State,
      (∀ h : s.sp.val < 16, ∃ t, exec (.call a) s = .next t ∧ t.sp.val = s.sp.val + 1 ∧
        (∀ j (hj : j < 16), t.stack[j] = if j = s.sp.val then s.pc else s.stack[j]) ∧
        t.pc.toNat = a.toNat ∧ { t with sp := s.sp, stack := s.stack, pc := s.pc } = s) ∧
      (s.sp.val = 16 → ∃ t, exec (.call a) s = .next t ∧
        t.fault = some ⟨.stackOverflow, s.fetchWord, s.fetchAddr⟩ ∧ { t with fault := s.fault } = s)

/-- `SE Vx,K` and `SNE Vx,K` (R103, R104). -/
def Obligations.SkipOnImmediate : Prop :=
  ∀ (x : RegIdx) (k : Byte),
    decodeWord (0x3#4 ++ x ++ k) = .ok (.seK x k) ∧ decodeWord (0x4#4 ++ x ++ k) = .ok (.sneK x k) ∧
    ∀ s : State,
      (∃ t, exec (.seK x k) s = .next t ∧
        t.pc = (if (s.reg x).toNat = k.toNat then s.pc + 2 else s.pc) ∧ { t with pc := s.pc } = s) ∧
      (∃ t, exec (.sneK x k) s = .next t ∧
        t.pc = (if (s.reg x).toNat ≠ k.toNat then s.pc + 2 else s.pc) ∧ { t with pc := s.pc } = s)

/-- `SE Vx,Vy` and `SNE Vx,Vy` (R105, R106), with the words their strict low nibble leaves illegal (the spec's decision D5). -/
def Obligations.SkipOnRegisters : Prop :=
  ∀ x y : RegIdx,
    decodeWord (0x5#4 ++ x ++ y ++ 0x0#4) = .ok (.seReg x y) ∧
    decodeWord (0x9#4 ++ x ++ y ++ 0x0#4) = .ok (.sneReg x y) ∧
    (∀ n : BitVec 4, n ≠ 0 → decodeWord (0x5#4 ++ x ++ y ++ n) = .error .class5 ∧
      decodeWord (0x9#4 ++ x ++ y ++ n) = .error .class9) ∧
    ∀ s : State,
      (∃ t, exec (.seReg x y) s = .next t ∧
        t.pc = (if (s.reg x).toNat = (s.reg y).toNat then s.pc + 2 else s.pc) ∧ { t with pc := s.pc } = s) ∧
      (∃ t, exec (.sneReg x y) s = .next t ∧
        t.pc = (if (s.reg x).toNat ≠ (s.reg y).toNat then s.pc + 2 else s.pc) ∧ { t with pc := s.pc } = s)

/-- `JP V0,ADDR` (R107): the register is `V0` in legacy mode and the one of the address's top nibble in `SCHIP` mode. That
nothing is masked is the spec's decision D41. -/
def Obligations.JumpWithOffset : Prop :=
  ∀ (x : RegIdx) (a : Addr12), x.toNat = a.toNat / 256 →
    decodeWord (0xB#4 ++ a) = .ok (.jpV0 x a) ∧
    ∀ s : State, ∃ t, exec (.jpV0 x a) s = .next t ∧
      t.pc.toNat = (if s.schip then s.reg x else s.reg 0).toNat + a.toNat ∧ { t with pc := s.pc } = s

/-! ## Registers, arithmetic, logic -/

/-- `LD Vx,K` and `ADD Vx,K` (R120, R121). -/
def Obligations.LoadAndAddImmediate : Prop :=
  ∀ (x : RegIdx) (k : Byte),
    decodeWord (0x6#4 ++ x ++ k) = .ok (.ldK x k) ∧ decodeWord (0x7#4 ++ x ++ k) = .ok (.addK x k) ∧
    ∀ s : State,
      (∃ t, exec (.ldK x k) s = .next t ∧
        (∀ r, t.reg r = if r = x then k else s.reg r) ∧ { t with v := s.v } = s) ∧
      (∃ t, exec (.addK x k) s = .next t ∧
        (∀ r, (t.reg r).toNat = if r = x then ((s.reg x).toNat + k.toNat) % 256 else (s.reg r).toNat) ∧
        { t with v := s.v } = s)

/-- `LD Vx,Vy` (R122). That no flag is written, in either mode, is the spec's decision D11. -/
def Obligations.CopyRegister : Prop :=
  ∀ x y : RegIdx, decodeWord (0x8#4 ++ x ++ y ++ 0x0#4) = .ok (.ldReg x y) ∧
    ∀ s : State, ∃ t, exec (.ldReg x y) s = .next t ∧
      (∀ r, t.reg r = if r = x then s.reg y else s.reg r) ∧ { t with v := s.v } = s

/-- `OR`, `AND`, `XOR` (R123, R124, R125), bit by bit; legacy mode clears `VF` last. -/
def Obligations.BitwiseLogic : Prop :=
  ∀ x y : RegIdx,
    decodeWord (0x8#4 ++ x ++ y ++ 0x1#4) = .ok (.orReg x y) ∧
    decodeWord (0x8#4 ++ x ++ y ++ 0x2#4) = .ok (.andReg x y) ∧
    decodeWord (0x8#4 ++ x ++ y ++ 0x3#4) = .ok (.xorReg x y) ∧
    ∀ (s : State) (i : Instr) (f : Bool → Bool → Bool),
      (i = .orReg x y ∧ f = or) ∨ (i = .andReg x y ∧ f = and) ∨ (i = .xorReg x y ∧ f = xor) →
      ∃ t, exec i s = .next t ∧
        (∀ (r : RegIdx) (j : Nat), j < 8 → (t.reg r).getLsbD j =
          if s.schip = false ∧ r = 0xF#4 then false
          else if r = x then f ((s.reg x).getLsbD j) ((s.reg y).getLsbD j)
          else (s.reg r).getLsbD j) ∧
        { t with v := s.v } = s

/-- `ADD Vx,Vy` (R126): the flag is written last, and the operands are the registers before the instruction. -/
def Obligations.AddWithCarry : Prop :=
  ∀ x y : RegIdx, decodeWord (0x8#4 ++ x ++ y ++ 0x4#4) = .ok (.addReg x y) ∧
    ∀ s : State, ∃ t, exec (.addReg x y) s = .next t ∧
      (∀ r, (t.reg r).toNat =
        if r = 0xF#4 then (if (s.reg x).toNat + (s.reg y).toNat > 255 then 1 else 0)
        else if r = x then ((s.reg x).toNat + (s.reg y).toNat) % 256
        else (s.reg r).toNat) ∧
      { t with v := s.v } = s

/-- `SUB` and `SUBN` (R127, R129): the flag is 1 when no borrow occurred. -/
def Obligations.SubtractBothWays : Prop :=
  ∀ x y : RegIdx,
    decodeWord (0x8#4 ++ x ++ y ++ 0x5#4) = .ok (.subReg x y) ∧
    decodeWord (0x8#4 ++ x ++ y ++ 0x7#4) = .ok (.subnReg x y) ∧
    ∀ s : State,
      (∃ t, exec (.subReg x y) s = .next t ∧
        (∀ r, (t.reg r).toNat =
          if r = 0xF#4 then (if (s.reg x).toNat ≥ (s.reg y).toNat then 1 else 0)
          else if r = x then ((s.reg x).toNat + 256 - (s.reg y).toNat) % 256
          else (s.reg r).toNat) ∧
        { t with v := s.v } = s) ∧
      (∃ t, exec (.subnReg x y) s = .next t ∧
        (∀ r, (t.reg r).toNat =
          if r = 0xF#4 then (if (s.reg y).toNat ≥ (s.reg x).toNat then 1 else 0)
          else if r = x then ((s.reg y).toNat + 256 - (s.reg x).toNat) % 256
          else (s.reg r).toNat) ∧
        { t with v := s.v } = s)

/-- `SHR` and `SHL` (R128, R130): the source is `V[X]` in `SCHIP` mode and `V[Y]` in legacy mode. -/
def Obligations.ShiftByOne : Prop :=
  ∀ x y : RegIdx,
    decodeWord (0x8#4 ++ x ++ y ++ 0x6#4) = .ok (.shrReg x y) ∧
    decodeWord (0x8#4 ++ x ++ y ++ 0xE#4) = .ok (.shlReg x y) ∧
    ∀ s : State,
      (∃ t, exec (.shrReg x y) s = .next t ∧
        (∀ r, (t.reg r).toNat =
          if r = 0xF#4 then (if s.schip then s.reg x else s.reg y).toNat % 2
          else if r = x then (if s.schip then s.reg x else s.reg y).toNat / 2
          else (s.reg r).toNat) ∧
        { t with v := s.v } = s) ∧
      (∃ t, exec (.shlReg x y) s = .next t ∧
        (∀ r, (t.reg r).toNat =
          if r = 0xF#4 then (if s.schip then s.reg x else s.reg y).toNat / 128
          else if r = x then (if s.schip then s.reg x else s.reg y).toNat * 2 % 256
          else (s.reg r).toNat) ∧
        { t with v := s.v } = s)

/-- `RND Vx,K` (R131): one draw, whatever it answers. The draw is the free value of log entry 5 (DESIGN CHOICE) and the spec's
decision D37. -/
def Obligations.RandomUnderMask : Prop :=
  ∀ (x : RegIdx) (k : Byte), decodeWord (0xC#4 ++ x ++ k) = .ok (.rnd x k) ∧
    ∀ s : State, ∃ t, exec (.rnd x k) s = .next t ∧
      (∀ r, t.reg r = if r = x then Config.randByte s.draws &&& k else s.reg r) ∧
      t.draws = s.draws + 1 ∧ { t with v := s.v, draws := s.draws } = s

/-! ## Display -/

/-- `CLS` (R140). That `drew` is false is the spec's decision D20, and the grid's size is D1 (log entry 11). -/
def Obligations.ClearScreen : Prop :=
  decodeWord 0x00E0#16 = .ok .cls ∧
  ∀ s : State, ∃ t, exec .cls s = .next t ∧
    (∀ p q : Nat, p < 64 → q < 32 → t.cell p q = 0) ∧ t.drew = false ∧
    { t with disp := s.disp, drew := s.drew } = s

/-- When the shown rows of the sprite lie in memory, `DRW` completes; its frame (R141, R144, R145, R186). Rests on the spec's
decisions D1 (64 by 32 cells, log entry 11), D8, D16 (clipped rows are not read) and D19 (the last column). -/
def Obligations.DrawCompletesAndFrame : Prop :=
  ∀ (x y : RegIdx) (n : BitVec 4), decodeWord (0xD#4 ++ x ++ y ++ n) = .ok (.drw x y n) ∧
    ∀ s : State, s.i.toNat + shownRows ((s.reg y).toNat % 32) n ≤ 4096 →
      ∃ t, exec (.drw x y n) s = .next t ∧
        (∀ r, r ≠ 0xF#4 → t.reg r = s.reg r) ∧ (t.reg 0xF = 0 ∨ t.reg 0xF = 1) ∧
        (s.rflick = false → t.drew = true) ∧
        (∀ p q : Nat, q < (s.reg y).toNat % 32 ∨
            (s.reg y).toNat % 32 + shownRows ((s.reg y).toNat % 32) n ≤ q ∨
            p < (s.reg x).toNat % 64 ∨ (s.reg x).toNat % 64 + 7 < p → t.cell p q = s.cell p q) ∧
        { t with v := s.v, disp := s.disp, drew := s.drew } = s

/-- Every shown sprite bit toggles the cell of its column; bits past the last column toggle the last one (R142, R144, R145,
R146, R152). A cell of the box holds 255 when it ends on; otherwise 0, or in trace mode `TRACE_FN` of its old value (R149), bit
after bit where several bits go to it. Rests on the spec's decisions D1 (log entry 11), D16, D17, D18 and D19, and on the free
`TRACE_FN` of log entry 10. -/
def Obligations.DrawTogglesCells : Prop :=
  ∀ (x y : RegIdx) (n : BitVec 4) (s : State),
    s.i.toNat + shownRows ((s.reg y).toNat % 32) n ≤ 4096 →
    ∃ t, exec (.drw x y n) s = .next t ∧
      ∀ p q : Nat, p < 64 → q < 32 →
        t.on p q = xor (s.on p q)
          (decide ((s.reg y).toNat % 32 ≤ q ∧ q < (s.reg y).toNat % 32 + shownRows ((s.reg y).toNat % 32) n) &&
            oddBits ((s.reg x).toNat % 64) (s.mem.read (s.i.toNat + (q - (s.reg y).toNat % 32))) p) ∧
        ((s.reg y).toNat % 32 ≤ q →
          q < (s.reg y).toNat % 32 + shownRows ((s.reg y).toNat % 32) n →
          (s.reg x).toNat % 64 ≤ p → p ≤ (s.reg x).toNat % 64 + 7 →
          (s.trace = false → t.cell p q = if t.on p q then 255#8 else 0) ∧
          (s.trace = true → p ≠ 63 ∨ (s.reg x).toNat % 64 ≤ 56 →
            t.cell p q = if t.on p q then 255#8 else BitVec.ofNat 8 (Config.traceFn (s.cell p q)).val) ∧
          t.cell p q = intensityAfter s.trace ((s.reg x).toNat % 64)
            (s.mem.read (s.i.toNat + (q - (s.reg y).toNat % 32))) p (s.cell p q))

/-- `VF` and `drew`, for every start column: a collision is a 1 bit that finds its cell on, a new pixel a 1 bit that finds it
off, each bit seeing what the earlier bits of the row did (R143, R147, R148); so two 1 bits of a shown row in the last column
always report a collision and a new pixel (R152). Clear of the last columns every bit sees the cell as it was before. Rests on
the spec's decisions D1 (log entry 11), D16, D17 and D19. -/
def Obligations.DrawReportsCollision : Prop :=
  ∀ (x y : RegIdx) (n : BitVec 4) (s : State),
    s.i.toNat + shownRows ((s.reg y).toNat % 32) n ≤ 4096 →
    ∃ t, exec (.drw x y n) s = .next t ∧
      (t.reg 0xF = 1 ↔ ∃ r c : Nat, r < shownRows ((s.reg y).toNat % 32) n ∧ c < 8 ∧
        (s.mem.read (s.i.toNat + r)).getLsbD (7 - c) = true ∧
        findsOn ((s.reg x).toNat % 64) (s.mem.read (s.i.toNat + r))
          (fun p => s.on p ((s.reg y).toNat % 32 + r)) c = true) ∧
      (t.reg 0xF = 0 ∨ t.reg 0xF = 1) ∧
      (t.drew = true ↔ s.rflick = false ∨
        ∃ r c : Nat, r < shownRows ((s.reg y).toNat % 32) n ∧ c < 8 ∧
          (s.mem.read (s.i.toNat + r)).getLsbD (7 - c) = true ∧
          findsOn ((s.reg x).toNat % 64) (s.mem.read (s.i.toNat + r))
            (fun p => s.on p ((s.reg y).toNat % 32 + r)) c = false) ∧
      (∀ r : Nat, r < shownRows ((s.reg y).toNat % 32) n →
        2 ≤ lastColumnBits ((s.reg x).toNat % 64) (s.mem.read (s.i.toNat + r)) → t.reg 0xF = 1 ∧ t.drew = true) ∧
      ((s.reg x).toNat % 64 ≤ 56 → ∀ r c : Nat, c < 8 →
        findsOn ((s.reg x).toNat % 64) (s.mem.read (s.i.toNat + r)) (fun p => s.on p ((s.reg y).toNat % 32 + r)) c =
          s.on ((s.reg x).toNat % 64 + c) ((s.reg y).toNat % 32 + r))

/-- When a shown row lies beyond memory, `DRW` faults at the first such row; what the rows before it drew, and `VF`, stay
(R141, R144, R248). Rests on the spec's decisions D8, D16 and D23, and on log entries 7 and 16 (DEDUCED). -/
def Obligations.DrawFaultsBeyondMemory : Prop :=
  ∀ (x y : RegIdx) (n : BitVec 4) (s : State) (r : Nat),
    r = 4096 - s.i.toNat → r < shownRows ((s.reg y).toNat % 32) n →
    ∃ t u, exec (.drw x y n) s = .next t ∧ exec (.drw x y (BitVec.ofNat 4 r)) s = .next u ∧
      u.fault = s.fault ∧
      t = { u with fault := some ⟨.memBounds (s.i.toNat + r), s.fetchWord, s.fetchAddr⟩, drew := s.drew }

/-- `DRW Vx,Vy,0`, for every `I` (R150, which the spec marks as derived). -/
def Obligations.DrawOfNoRows : Prop :=
  ∀ (x y : RegIdx) (s : State), ∃ t, exec (.drw x y 0) s = .next t ∧
    (∀ r, t.reg r = if r = 0xF#4 then 0 else s.reg r) ∧
    t.drew = (if s.rflick then false else true) ∧ { t with v := s.v, drew := s.drew } = s

/-- Two draws of one sprite restore the logical framebuffer (R153, which the spec marks as derived), whether or not they fault. -/
def Obligations.DrawTwiceRestores : Prop :=
  ∀ (x y : RegIdx) (n : BitVec 4) (s t u : State),
    exec (.drw x y n) s = .next t → t.reg x = s.reg x → t.reg y = s.reg y →
    exec (.drw x y n) t = .next u →
    ∀ p q : Nat, p < 64 → q < 32 → u.on p q = s.on p q

/-- Intermediate intensities and the trace mode never feed back: two states with the same logical framebuffer and all else
equal go on to two such states (R35, R149, derived in the spec; `TRACE_FN` is the free value of log entry 10). -/
def Obligations.IntensitiesNeverFeedBack : Prop :=
  ∀ (i : Instr) (s : State) (d : Display) (b : Bool),
    (∀ p q : Nat, p < 64 → q < 32 → (Display.get d p q = 255#8 ↔ s.cell p q = 255#8)) →
    ∀ t u, exec i s = .next t → exec i { s with disp := d, trace := b } = .next u →
      (∀ p q : Nat, p < 64 → q < 32 → (u.cell p q = 255#8 ↔ t.cell p q = 255#8)) ∧
      { u with disp := t.disp, trace := t.trace } = t

/-! ## Keys and timers -/

/-- `SKP Vx` and `SKNP Vx` (R160, R161, R245). The fault above 15 is the spec's decision D9, and what counts as pressed is D10. -/
def Obligations.SkipOnKey : Prop :=
  ∀ x : RegIdx,
    decodeWord (0xE#4 ++ x ++ 0x9E#8) = .ok (.skp x) ∧ decodeWord (0xE#4 ++ x ++ 0xA1#8) = .ok (.sknp x) ∧
    ∀ s : State,
      (∀ k : RegIdx, (s.reg x).toNat = k.toNat →
        (∃ t, exec (.skp x) s = .next t ∧
          t.pc = (if s.keyAt k = .pressed then s.pc + 2 else s.pc) ∧ { t with pc := s.pc } = s) ∧
        (∃ t, exec (.sknp x) s = .next t ∧
          t.pc = (if s.keyAt k ≠ .pressed then s.pc + 2 else s.pc) ∧ { t with pc := s.pc } = s)) ∧
      ((s.reg x).toNat > 15 → ∀ i, i = Instr.skp x ∨ i = Instr.sknp x →
        ∃ t, exec i s = .next t ∧
          t.fault = some ⟨.keyIndex (s.reg x), s.fetchWord, s.fetchAddr⟩ ∧ { t with fault := s.fault } = s)

/-- `LD Vx,KEY` (R162): the lowest released key is taken (the order is the spec's decision D21); with none the instruction is
set to run again. -/
def Obligations.WaitForKey : Prop :=
  ∀ x : RegIdx, decodeWord (0xF#4 ++ x ++ 0x0A#8) = .ok (.ldVxKey x) ∧
    ∀ s : State,
      (∀ k : RegIdx, s.keyAt k = .justReleased →
        (∀ j : RegIdx, j.toNat < k.toNat → s.keyAt j ≠ .justReleased) →
        ∃ t, exec (.ldVxKey x) s = .next t ∧
          (∀ r, (t.reg r).toNat = if r = x then k.toNat else (s.reg r).toNat) ∧
          (∀ j, t.keyAt j = if j = k then .released else s.keyAt j) ∧
          { t with v := s.v, key := s.key } = s) ∧
      ((∀ k : RegIdx, s.keyAt k ≠ .justReleased) →
        ∃ t, exec (.ldVxKey x) s = .next t ∧ t.pc = s.pc - 2 ∧ { t with pc := s.pc } = s)

/-- `LD Vx,DT`, `LD DT,Vx`, `LD ST,Vx` (R163, R164, R165). -/
def Obligations.TimerTransfers : Prop :=
  ∀ x : RegIdx,
    decodeWord (0xF#4 ++ x ++ 0x07#8) = .ok (.ldVxDt x) ∧
    decodeWord (0xF#4 ++ x ++ 0x15#8) = .ok (.ldDtVx x) ∧
    decodeWord (0xF#4 ++ x ++ 0x18#8) = .ok (.ldStVx x) ∧
    ∀ s : State,
      (∃ t, exec (.ldVxDt x) s = .next t ∧
        (∀ r, t.reg r = if r = x then s.dt else s.reg r) ∧ { t with v := s.v } = s) ∧
      (∃ t, exec (.ldDtVx x) s = .next t ∧ t.dt = s.reg x ∧ { t with dt := s.dt } = s) ∧
      (∃ t, exec (.ldStVx x) s = .next t ∧ t.st = s.reg x ∧ { t with st := s.st } = s)

/-! ## Index register and memory -/

/-- `LD I,ADDR` and `LD F,Vx` (R180, R182), for every place of the font. -/
def Obligations.LoadIndex : Prop :=
  (∀ a : Addr12, decodeWord (0xA#4 ++ a) = .ok (.ldI a) ∧
    ∀ s : State, ∃ t, exec (.ldI a) s = .next t ∧ t.i.toNat = a.toNat ∧ { t with i := s.i } = s) ∧
  (∀ x : RegIdx, decodeWord (0xF#4 ++ x ++ 0x29#8) = .ok (.ldF x) ∧
    ∀ s : State, ∃ t, exec (.ldF x) s = .next t ∧
      t.i.toNat = Config.fontBase.val + 5 * ((s.reg x).toNat % 16) ∧ { t with i := s.i } = s)

/-- `ADD I,Vx` (R181, R246). The overflow fault is the spec's decision D12, and that its record carries the sum is log entry
16 (DEDUCED); `ADDI_VF_CLEAR` (D13) is the free Boolean of log entry 9. -/
def Obligations.AddToIndex : Prop :=
  ∀ x : RegIdx, decodeWord (0xF#4 ++ x ++ 0x1E#8) = .ok (.addI x) ∧
    ∀ s : State,
      (s.i.toNat + (s.reg x).toNat ≤ 0xFFFF →
        ∃ t, exec (.addI x) s = .next t ∧ t.i.toNat = s.i.toNat + (s.reg x).toNat ∧
          (∀ r, t.reg r =
            if r = 0xF#4 ∧ t.i.toNat ≥ 4096 then 1
            else if r = 0xF#4 ∧ Config.addiVfClear = true then 0
            else s.reg r) ∧
          { t with v := s.v, i := s.i } = s) ∧
      (s.i.toNat + (s.reg x).toNat > 0xFFFF →
        ∃ t, exec (.addI x) s = .next t ∧
          t.fault = some ⟨.indexOverflow (s.i.toNat + (s.reg x).toNat), s.fetchWord, s.fetchAddr⟩ ∧
          { t with fault := s.fault } = s)

/-- `LD B,Vx` (R183): the digit bytes below the end of memory are stored, every other byte of memory is as before, and a digit
beyond the end faults. Packing from `I` is the spec's decision D14, the fault is D8 and D23. -/
def Obligations.StoreDecimalDigits : Prop :=
  ∀ x : RegIdx, decodeWord (0xF#4 ++ x ++ 0x33#8) = .ok (.ldB x) ∧
    ∀ s : State, ∃ t, exec (.ldB x) s = .next t ∧
      (∀ a : Nat, t.mem.read a =
        if s.i.toNat ≤ a ∧ a ≤ 0xFFF ∧ a - s.i.toNat < (significantDigits (s.reg x)).length
        then (significantDigits (s.reg x)).getD (a - s.i.toNat) 0 else s.mem.read a) ∧
      t.fault =
        (if s.i.toNat + (significantDigits (s.reg x)).length ≤ 4096 then s.fault
          else some ⟨.memBounds (max s.i.toNat 4096), s.fetchWord, s.fetchAddr⟩) ∧
      { t with mem := s.mem, fault := s.fault } = s

/-- `LD [I],Vx` (R184): `V[j]` goes to the original `I + j`; bytes below the end of memory are stored, and one beyond it faults.
The ascending order is the spec's decision D15, the fault is D8 and D23. -/
def Obligations.StoreRegisterBlock : Prop :=
  ∀ x : RegIdx, decodeWord (0xF#4 ++ x ++ 0x55#8) = .ok (.storeRegs x) ∧
    ∀ s : State, ∃ t, exec (.storeRegs x) s = .next t ∧
      (∀ a : Nat, t.mem.read a =
        if s.i.toNat ≤ a ∧ a ≤ 0xFFF ∧ a - s.i.toNat ≤ x.toNat
        then s.reg (BitVec.ofNat 4 (a - s.i.toNat)) else s.mem.read a) ∧
      t.i.toNat =
        (if s.schip then s.i.toNat else s.i.toNat + min (x.toNat + 1) (4096 - s.i.toNat)) ∧
      t.fault =
        (if s.i.toNat + x.toNat + 1 ≤ 4096 then s.fault
          else some ⟨.memBounds (max s.i.toNat 4096), s.fetchWord, s.fetchAddr⟩) ∧
      { t with mem := s.mem, i := s.i, fault := s.fault } = s

/-- `LD Vx,[I]` (R185): `V[j]` receives the byte at the original `I + j`; a byte beyond the end of memory faults. The ascending
order is the spec's decision D15, the fault is D8 and D23. -/
def Obligations.LoadRegisterBlock : Prop :=
  ∀ x : RegIdx, decodeWord (0xF#4 ++ x ++ 0x65#8) = .ok (.loadRegs x) ∧
    ∀ s : State, ∃ t, exec (.loadRegs x) s = .next t ∧
      (∀ r : RegIdx, t.reg r =
        if r.toNat ≤ x.toNat ∧ s.i.toNat + r.toNat ≤ 0xFFF
        then s.mem.read (s.i.toNat + r.toNat) else s.reg r) ∧
      t.i.toNat =
        (if s.schip then s.i.toNat else s.i.toNat + min (x.toNat + 1) (4096 - s.i.toNat)) ∧
      t.fault =
        (if s.i.toNat + x.toNat + 1 ≤ 4096 then s.fault
          else some ⟨.memBounds (max s.i.toNat 4096), s.fetchWord, s.fetchAddr⟩) ∧
      { t with v := s.v, i := s.i, fault := s.fault } = s

/-- The canonical form of memory is one: two canonical memories that read alike are the same data. The form is the model's
(log entry 17, DESIGN CHOICE). -/
def Obligations.CanonicalMemoryIsUnique : Prop :=
  ∀ m n : Memory, m.wf → n.wf → (∀ a : Nat, a < 4096 → m.read a = n.read a) → m = n

/-- A store is seen by the very next fetch, in either byte of the word (R54, R62; the spec's decision D38). -/
def Obligations.StoreIsSeenByNextFetch : Prop :=
  ∀ (s t : State) (a : Nat) (b : Byte), memWrite a b s = .ok t → s.pc.toNat ≤ 0xFFE →
    ∃ u, fetch t = .ok u ∧ u.pc.toNat = s.pc.toNat + 2 ∧
      u.fetchWord.toNat =
        256 * (if a = s.pc.toNat then b else s.mem.read s.pc.toNat).toNat +
          (if a = s.pc.toNat + 1 then b else s.mem.read (s.pc.toNat + 1)).toNat

/-! ## The step -/

/-- When the bytes at `PC` decode, the step is `exec` of that instruction, on the state with the timers advanced and `PC`
past the word, followed by the sweep, the tick and the outputs (R203, R204, R208; the order is the spec's decision D33).
`elapsed` is the free value of log entry 6 (DESIGN CHOICE). -/
def Obligations.StepRunsDecodedInstruction : Prop :=
  ∀ (s : State) (i : Instr), s.fault = none → doExec (Config.elapsed s.steps).val s = true →
    s.pc.toNat ≤ 0xFFE → decodeWord s.nextWord = .ok i →
    ∃ u, exec i (s.afterFetch (Config.elapsed s.steps).val) = .next u ∧
      step s = .next (finishStep (doTick (Config.elapsed s.steps).val s) (sweepAfter u))

/-- A word that lies beyond memory or is illegal faults (R203, R241; the spec's decisions D8 and D23); only the interval timers
and the model's own latch, counter and outputs (log entries 3, 4, 6) change beside `FAULT` and `PC`. -/
def Obligations.StepFaultsOnBadWord : Prop :=
  ∀ (e : Rat) (s : State), s.fault = none → doExec e s = true →
    (s.pc.toNat > 0xFFE → ∃ t, cycle e s = .next t ∧
      t.fault = some ⟨.memBounds (max s.pc.toNat 4096), 0, s.pc⟩ ∧ t.drew = false ∧ t.beep = false ∧
      { t with fault := none, cpuAcc := s.cpuAcc, tickAcc := s.tickAcc, steps := s.steps,
               fetchWord := s.fetchWord, fetchAddr := s.fetchAddr, drew := s.drew, beep := s.beep } = s) ∧
    (s.pc.toNat ≤ 0xFFE → (∃ x, decodeWord s.nextWord = .error x) → ∃ t, cycle e s = .next t ∧
      t.fault = some ⟨.decodeFault, s.nextWord, s.pc⟩ ∧ t.pc = s.pc + 2 ∧ t.drew = false ∧ t.beep = false ∧
      { t with fault := none, pc := s.pc, cpuAcc := s.cpuAcc, tickAcc := s.tickAcc, steps := s.steps,
               fetchWord := s.fetchWord, fetchAddr := s.fetchAddr, drew := s.drew, beep := s.beep } = s)

/-- A faulted core changes nothing and answers false, false; a fault raised in a step ends it there (R209; the spec's decisions
D23 and D24, and log entry 7, DEDUCED). -/
def Obligations.FaultedCoreStands : Prop :=
  (∀ (e : Rat) (s : State), s.fault ≠ none →
    ∃ t, cycle e s = .next t ∧ t.drew = false ∧ t.beep = false ∧ { t with drew := s.drew, beep := s.beep } = s) ∧
  (∀ (e : Rat) (s u : State), s.fault = none → doExec e s = true → fetchExecute (beginStep e s) = .next u →
    u.fault ≠ none → ∃ t, cycle e s = .next t ∧ t.drew = false ∧ t.beep = false ∧
      { t with drew := u.drew, beep := u.beep } = u)

/-- R211: while `Paused` every step fetches and executes once and, unless that faults, sweeps the release marks and then ticks
both timer registers once; nothing else changes after the execute, and no tone sounds. The core starts `Paused`. That the
tick comes after the execute is the spec's decision D33, and what a fault leaves is D23. -/
def Obligations.PausedStepExecutesAndTicks : Prop :=
  State.reset.run = .paused ∧
  ∀ (e : Rat) (s : State), s.run = .paused → s.fault = none →
    ∃ u t, fetchExecute (beginStep e s) = .next u ∧ cycle e s = .next t ∧ t.beep = false ∧
      (u.fault = none → t.dt.toNat = u.dt.toNat - 1 ∧ t.st.toNat = u.st.toNat - 1 ∧
        (∀ k, t.keyAt k = if u.keyAt k = .justReleased then .released else u.keyAt k) ∧
        { t with key := u.key, dt := u.dt, st := u.st, beep := u.beep } = u) ∧
      (u.fault ≠ none → t.drew = false ∧ { t with drew := u.drew, beep := u.beep } = u)

/-- R202: a step of a running core whose instruction timer has not fired executes nothing: `PC`, registers, memory, display
and keys are untouched, `drew` is false (the spec's decision D20), and only the tick may lower `DT` and `ST` (R206).
`shouldBeep` is taken from `ST` after that tick (R207, the spec's decision D33). -/
def Obligations.IdleStepExecutesNothing : Prop :=
  ∀ (e : Rat) (s : State), s.fault = none → s.run = .running → s.cpuAcc + e < 1 / s.cpuHz →
    ∃ t, cycle e s = .next t ∧ t.drew = false ∧
      t.dt.toNat = (if 1 / 60 ≤ s.tickAcc + e then s.dt.toNat - 1 else s.dt.toNat) ∧
      t.st.toNat = (if 1 / 60 ≤ s.tickAcc + e then s.st.toNat - 1 else s.st.toNat) ∧
      (t.beep = true ↔ t.st.toNat ≠ 0) ∧
      { t with dt := s.dt, st := s.st, cpuAcc := s.cpuAcc, tickAcc := s.tickAcc, steps := s.steps,
               drew := s.drew, beep := s.beep } = s

/-- R205, R206, R207: after an execute without fault the sweep clears the pending releases, the tick lowers `DT` and `ST` if
due, and `shouldBeep` is taken after it (the spec's decision D33). -/
def Obligations.ExecutedStepSweepsTicksBeeps : Prop :=
  ∀ (e : Rat) (s u : State), s.fault = none → s.run = .paused ∨ 1 / s.cpuHz ≤ s.cpuAcc + e →
    fetchExecute (beginStep e s) = .next u → u.fault = none →
    ∃ t, cycle e s = .next t ∧
      (∀ k, t.keyAt k = if u.keyAt k = .justReleased then .released else u.keyAt k) ∧
      t.dt.toNat = (if s.run = .paused ∨ 1 / 60 ≤ s.tickAcc + e then u.dt.toNat - 1 else u.dt.toNat) ∧
      t.st.toNat = (if s.run = .paused ∨ 1 / 60 ≤ s.tickAcc + e then u.st.toNat - 1 else u.st.toNat) ∧
      (t.beep = true ↔ s.run = .running ∧ t.st.toNat ≠ 0) ∧
      { t with key := u.key, dt := u.dt, st := u.st, beep := u.beep } = u

/-- R201: a timer fires when its total reaches the period, and keeps the total modulo the period (the spec's decision D31). -/
def Obligations.IntervalTimersAdvance : Prop :=
  ∀ (e : Rat) (s t : State), s.fault = none → 0 < s.cpuHz → cycle e s = .next t →
    (doExec e s = true ↔ s.run = .paused ∨ 1 / s.cpuHz ≤ s.cpuAcc + e) ∧
    (doTick e s = true ↔ s.run = .paused ∨ 1 / 60 ≤ s.tickAcc + e) ∧
    (0 ≤ t.cpuAcc ∧ t.cpuAcc < 1 / s.cpuHz ∧ ∃ k : Int, s.cpuAcc + e = k * (1 / s.cpuHz) + t.cpuAcc) ∧
    (0 ≤ t.tickAcc ∧ t.tickAcc < 1 / 60 ∧ ∃ k : Int, s.tickAcc + e = k * (1 / 60) + t.tickAcc)

/-- R259 (derived in the spec): which fault each instruction, a fetch and an illegal word can raise. The causes are the spec's
decision D22; what each carries is log entry 16 (DEDUCED). -/
def Obligations.FaultsByInstruction : Prop :=
  (∀ (s : State) (c : FaultCause), fetch s = .error c → ∃ a, c = .memBounds a ∧ a > 0xFFF) ∧
  (∀ (s t : State) (x : Illegal), decodeWord s.fetchWord = .error x → executeFetched s = .next t →
    t.fault = some ⟨.decodeFault, s.fetchWord, s.fetchAddr⟩) ∧
  (∀ (i : Instr) (s t : State) (r : FaultRecord), s.fault = none → exec i s = .next t → t.fault = some r →
    r.word = s.fetchWord ∧ r.addr = s.fetchAddr ∧
    match i with
    | .call _ => r.cause = .stackOverflow
    | .ret => r.cause = .stackUnderflow
    | .drw _ _ _ | .ldB _ | .storeRegs _ | .loadRegs _ => ∃ a, r.cause = .memBounds a ∧ a > 0xFFF
    | .skp _ | .sknp _ => ∃ k, r.cause = .keyIndex k ∧ k.toNat > 15
    | .addI _ => ∃ n, r.cause = .indexOverflow n ∧ n > 0xFFFF
    | _ => False)

/-- R248 (the spec's decisions D22 and D23): whatever faults in a step, the record names the word at `PC` and its address (word
0 when the fetch itself faulted), `PC` is past the word (or still on it), and neither sweep nor tick nor outputs follow. -/
def Obligations.FaultRecordNamesInstruction : Prop :=
  ∀ (e : Rat) (s t : State) (r : FaultRecord), s.fault = none → cycle e s = .next t → t.fault = some r →
    r.addr = s.pc ∧
    ((s.pc.toNat > 0xFFE ∧ r.word = 0 ∧ t.pc = s.pc) ∨
      (s.pc.toNat ≤ 0xFFE ∧ r.word = s.nextWord ∧ t.pc = s.pc + 2)) ∧
    t.dt = s.dt ∧ t.st = s.st ∧ t.key = s.key ∧ t.drew = false ∧ t.beep = false

/-! ## Whole-machine rules -/

/-- No instruction reaches the run-state, the interval timers, the configuration, the ROM record or the model's latch (log entry
3); only `RND` draws (R29 to R32, R229; the draw counter is log entry 5). -/
def Obligations.InstructionsLeaveHostState : Prop :=
  ∀ (i : Instr) (s t : State), exec i s = .next t →
    t.run = s.run ∧ t.cpuAcc = s.cpuAcc ∧ t.tickAcc = s.tickAcc ∧ t.schip = s.schip ∧ t.trace = s.trace ∧
    t.rflick = s.rflick ∧ t.cpuHz = s.cpuHz ∧ t.romLen = s.romLen ∧ t.rom = s.rom ∧
    t.fetchWord = s.fetchWord ∧ t.fetchAddr = s.fetchAddr ∧ t.steps = s.steps ∧ t.beep = s.beep ∧
    t.draws = (match i with | .rnd _ _ => s.draws + 1 | _ => s.draws)

/-- Outside the eight instructions that R31 names the quirk mode changes nothing (R31; derived in R287). -/
def Obligations.QuirkModeChangesNoOtherInstruction : Prop :=
  ∀ (i : Instr) (s t : State) (b : Bool),
    (∀ x y, i ≠ .orReg x y) → (∀ x y, i ≠ .andReg x y) → (∀ x y, i ≠ .xorReg x y) →
    (∀ x y, i ≠ .shrReg x y) → (∀ x y, i ≠ .shlReg x y) → (∀ x a, i ≠ .jpV0 x a) →
    (∀ x, i ≠ .storeRegs x) → (∀ x, i ≠ .loadRegs x) →
    exec i s = .next t → exec i { s with schip := b } = .next { t with schip := b }

/-- Each item of the state is written by the instructions the spec names for it, and by no other (section 1 of
spec/10_state.md). -/
def Obligations.EachItemHasItsWriters : Prop :=
  ∀ (i : Instr) (s t : State), exec i s = .next t →
    (t.mem ≠ s.mem → (∃ x, i = .ldB x) ∨ ∃ x, i = .storeRegs x) ∧
    (t.disp ≠ s.disp → i = .cls ∨ ∃ x y n, i = .drw x y n) ∧
    (t.sp ≠ s.sp → i = .ret ∨ ∃ a, i = .call a) ∧ (t.stack ≠ s.stack → ∃ a, i = .call a) ∧
    (t.dt ≠ s.dt → ∃ x, i = .ldDtVx x) ∧ (t.st ≠ s.st → ∃ x, i = .ldStVx x) ∧
    (t.key ≠ s.key → ∃ x, i = .ldVxKey x) ∧
    (t.i ≠ s.i → (∃ a, i = .ldI a) ∨ (∃ x, i = .addI x) ∨ (∃ x, i = .ldF x) ∨ (∃ x, i = .storeRegs x) ∨
      ∃ x, i = .loadRegs x)

/-- A jump to itself is a fixed point: only the timers, the key latch and the outputs go on (R101, R288; the spec's decision
D40). -/
def Obligations.JumpToSelfStays : Prop :=
  ∀ (e : Rat) (s : State) (a : Addr12), s.fault = none → s.pc.toNat = a.toNat → a.toNat ≤ 0xFFE →
    s.nextWord = 0x1#4 ++ a →
    ∃ t, cycle e s = .next t ∧ t.fault = none ∧ t.v = s.v ∧ t.i = s.i ∧ t.pc = s.pc ∧ t.sp = s.sp ∧
      t.stack = s.stack ∧ t.mem = s.mem ∧ t.disp = s.disp

/-! ## Invariants -/

/-- The state after reset meets every invariant below (its clock and quirk mode are log entries 1 and 2, DESIGN CHOICE). -/
def Obligations.ResetMeetsInvariants : Prop :=
  State.reset.Inv ∧ State.reset.DisplayTwoValued ∧ State.reset.Safe

/-- Every step keeps memory in its canonical form (log entry 17, DESIGN CHOICE). -/
def Obligations.StepKeepsMemoryCanonical : Prop :=
  ∀ s t : State, s.MemoryCanonical → step s = .next t → t.MemoryCanonical

/-- Every step keeps `PC` at most 0x10FE and the return addresses at most 0x1000 (R23, R100, derived in the spec). -/
def Obligations.StepKeepsPcBounded : Prop :=
  ∀ s t : State, s.PcBounded → step s = .next t → t.PcBounded

/-- Every step keeps each accumulator below its period (R30; the remainder rule is the spec's decision D31). -/
def Obligations.StepKeepsTimersInRange : Prop :=
  ∀ s t : State, s.TimersInRange → step s = .next t → t.TimersInRange

/-- With the trace mode off every step keeps every cell at 0 or 255 (R146, R149, R151). -/
def Obligations.StepKeepsDisplayTwoValued : Prop :=
  ∀ s t : State, s.DisplayTwoValued → step s = .next t → t.DisplayTwoValued

/-- Construction gives a state that meets the invariants, and every transaction of the host, a step with any `elapsed` among
them, leads from any state that meets them to one that does; so whatever the host does, in any order, they hold (R220, R221).
What lies outside the interface is refused (log entry 14, DESIGN CHOICE). -/
def Obligations.ReachableStatesMeetInvariants : Prop :=
  (∀ (hz : Rat) (b : Bool) (s : State), new hz b = .next s → s.Inv) ∧
  (∀ (a : Transaction) (s t : State), s.Inv → transact a s = .next t → t.Inv) ∧
  (∀ s : State, Reachable s → s.Inv)

/-! ## Host transactions -/

/-- The power-on state for every clock and quirk mode, with the font loaded (R41, R221, R272; the spec's decisions D3, D26, D35
and D42, and log entries 8 and 12); a clock that is not positive is refused (log entry 14). -/
def Obligations.PowerOnState : Prop :=
  ∀ (hz : Rat) (b : Bool),
    (0 < hz → ∃ s, new hz b = .next s ∧ s.cpuHz = hz ∧ s.schip = b ∧ s.trace = false ∧ s.rflick = false ∧
      (∀ r, s.reg r = 0) ∧ s.i = 0 ∧ s.pc = 0x200#16 ∧ s.sp = 0 ∧ (∀ j (h : j < 16), s.stack[j] = 0) ∧
      (∀ x y : Nat, x < 64 → y < 32 → s.cell x y = 0) ∧ s.dt = 0 ∧ s.st = 0 ∧ (∀ k, s.keyAt k = .released) ∧
      s.run = .paused ∧ s.fault = none ∧ s.cpuAcc = 0 ∧ s.tickAcc = 0 ∧ s.romLen = 0 ∧ s.rom = [] ∧
      (∀ a : Nat, s.mem.read a =
        if Config.fontBase.val ≤ a ∧ a < Config.fontBase.val + 80 then fontData.getD (a - Config.fontBase.val) 0
        else 0)) ∧
    (hz ≤ 0 → new hz b = .refused .clockNotPositive)

/-- The reset procedure and the memory image (R271, R272, R222; the spec's decisions D26, D27 and D3); a longer ROM is refused
(D29, log entry 14). -/
def Obligations.CartridgeInsertionResets : Prop :=
  ∀ (bytes : List Byte) (s : State),
    (bytes.length ≤ 3584 → ∃ t, transact (.insertCartridge bytes) s = .next t ∧
      (∀ r, t.reg r = 0) ∧ t.i = 0 ∧ t.pc = 0x200#16 ∧ t.sp = 0 ∧ (∀ j (h : j < 16), t.stack[j] = 0) ∧
      (∀ x y : Nat, x < 64 → y < 32 → t.cell x y = 0) ∧ t.dt = 0 ∧ t.st = 0 ∧ (∀ k, t.keyAt k = .released) ∧
      t.run = .paused ∧ t.fault = none ∧ t.cpuAcc = 0 ∧ t.tickAcc = 0 ∧
      t.romLen = bytes.length ∧ t.rom = bytes ∧
      t.schip = s.schip ∧ t.trace = s.trace ∧ t.rflick = s.rflick ∧ t.cpuHz = s.cpuHz ∧
      (∀ a : Nat, t.mem.read a =
        if Config.fontBase.val ≤ a ∧ a < Config.fontBase.val + 80 then fontData.getD (a - Config.fontBase.val) 0
        else if 0x200 ≤ a ∧ a - 0x200 < bytes.length then bytes.getD (a - 0x200) 0
        else 0)) ∧
    (bytes.length > 3584 → transact (.insertCartridge bytes) s = .refused .romTooLong)

/-- R223 (the spec's decision D28): whatever transactions follow an insertion, `reset()` inserts those bytes again. The counters
of the free values go on (log entry 18, DESIGN CHOICE). -/
def Obligations.ResetReinsertsLastRom : Prop :=
  (∀ (a : Transaction) (s t : State), (∀ b, a ≠ .insertCartridge b) → transact a s = .next t → t.rom = s.rom) ∧
  (∀ (bytes : List Byte) (s t u : State), transact (.insertCartridge bytes) s = .next t → u.rom = t.rom →
    ∃ w, transact .reset u = .next w ∧
      { w with schip := t.schip, trace := t.trace, rflick := t.rflick, cpuHz := t.cpuHz,
               draws := t.draws, steps := t.steps } = t)

/-- R224, R225, R226, R227: each of these transactions changes its own item and nothing else (the cleared accumulator is the
spec's decision D32, the key write D34; a clock that is not positive is refused, log entry 14). -/
def Obligations.HostSettersChangeOneItem : Prop :=
  ∀ s : State,
    (∃ t, transact .pause s = .next t ∧ t.run = .paused ∧ { t with run := s.run } = s) ∧
    (∃ t, transact .run s = .next t ∧ t.run = .running ∧ { t with run := s.run } = s) ∧
    (∀ b, ∃ t, transact (.setTrace b) s = .next t ∧ t.trace = b ∧ { t with trace := s.trace } = s) ∧
    (∀ b, ∃ t, transact (.setReduceFlicker b) s = .next t ∧ t.rflick = b ∧ { t with rflick := s.rflick } = s) ∧
    (∀ k q, ∃ t, transact (.keyWrite k q) s = .next t ∧ (∀ j, t.keyAt j = if j = k then q else s.keyAt j) ∧
      { t with key := s.key } = s) ∧
    transact (.changeClock s.cpuHz) s = (if s.cpuHz ≤ 0 then .refused .clockNotPositive else .next s) ∧
    (∀ hz, 0 < hz → hz ≠ s.cpuHz → ∃ t, transact (.changeClock hz) s = .next t ∧ t.cpuHz = hz ∧
      t.cpuPeriod = 1 / hz ∧ t.cpuAcc = 0 ∧ { t with cpuHz := s.cpuHz, cpuAcc := s.cpuAcc } = s) ∧
    (∀ hz, hz ≤ 0 → transact (.changeClock hz) s = .refused .clockNotPositive)

/-- R151 (the spec's decision D36): the decay pass changes no cell holding 0 or 255, produces no 255, and so leaves the logical
framebuffer; every change it may make is made by some pass. -/
def Obligations.DecayLeavesLogicalPicture : Prop :=
  (∀ (d : Display) (s : State), ∃ t, transact (.decay d) s = .next t ∧
    (∀ x y : Nat, x < 64 → y < 32 →
      (s.cell x y = 0 ∨ s.cell x y = 255#8 → t.cell x y = s.cell x y) ∧
      (s.cell x y ≠ 255#8 → t.cell x y ≠ 255#8) ∧ t.on x y = s.on x y) ∧
    { t with disp := s.disp } = s) ∧
  (∀ s t : State, { t with disp := s.disp } = s →
    (∀ x y : Nat, x < 64 → y < 32 → t.cell x y ≠ s.cell x y →
      s.cell x y ≠ 0 ∧ s.cell x y ≠ 255#8 ∧ t.cell x y ≠ 255#8) →
    ∃ d, transact (.decay d) s = .next t)
end

