-- ==== Sys2Proof/Laws/Memory.lean ====
section
/-! SUPPORT. What each memory operation does to every byte, and that each keeps the canonical form. -/

namespace Sys2Proof.Machine

@[simp] theorem Memory.read_nil (a : Nat) : Memory.read [] a = resetByte a := rfl

theorem Memory.read_cons (c : Host.Cell) (m : Memory) (a : Nat) :
    Memory.read (c :: m) a = if c.1 = a then c.2 else Memory.read m a := rfl

theorem Memory.read_of_unlisted {m : Memory} {a : Nat} (h : ∀ c ∈ m, c.1 ≠ a) :
    m.read a = resetByte a := by
  induction m with
  | nil => rfl
  | cons c m ih =>
    rw [Memory.read_cons, if_neg (h c (by simp)), ih fun d hd => h d (by simp [hd])]

theorem Memory.mem_erase {m : Memory} {a : Nat} {c : Host.Cell} :
    c ∈ m.erase a ↔ c ∈ m ∧ c.1 ≠ a := by
  simp [Memory.erase]

@[simp] theorem Memory.read_erase_self (m : Memory) (a : Nat) : (m.erase a).read a = resetByte a :=
  Memory.read_of_unlisted fun _ hc => (Memory.mem_erase.1 hc).2

theorem Memory.read_erase_of_ne {m : Memory} {a b : Nat} (h : a ≠ b) :
    (m.erase a).read b = m.read b := by
  induction m with
  | nil => rfl
  | cons c m ih =>
    by_cases hc : c.1 = a
    · have : Memory.erase (c :: m) a = Memory.erase m a := by simp [Memory.erase, hc]
      rw [this, ih, Memory.read_cons, if_neg (by omega)]
    · have : Memory.erase (c :: m) a = c :: Memory.erase m a := by simp [Memory.erase, hc]
      rw [this, Memory.read_cons, Memory.read_cons, ih]

theorem Memory.read_insertCell_self {m : Memory} {a : Nat} (b : Byte) (h : ∀ c ∈ m, c.1 ≠ a) :
    (m.insertCell a b).read a = b := by
  induction m with
  | nil => simp [Memory.insertCell, Memory.read_cons]
  | cons c m ih =>
    unfold Memory.insertCell
    split
    · simp [Memory.read_cons]
    · rw [Memory.read_cons, if_neg (h c (by simp)), ih fun d hd => h d (by simp [hd])]

theorem Memory.read_insertCell_of_ne {m : Memory} {a b : Nat} (v : Byte) (h : a ≠ b) :
    (m.insertCell a v).read b = m.read b := by
  induction m with
  | nil => simp [Memory.insertCell, Memory.read_cons, h]
  | cons c m ih =>
    unfold Memory.insertCell
    split
    · rw [Memory.read_cons, if_neg h]
    · rw [Memory.read_cons, Memory.read_cons, ih]

/-- A read after a write to the same address gives the byte written (R59 of spec/20_memory.md). -/
@[simp] theorem Memory.read_write_self (m : Memory) (a : Nat) (b : Byte) : (m.write a b).read a = b := by
  unfold Memory.write
  split
  · rw [Memory.read_erase_self, ‹b = _›]
  · exact Memory.read_insertCell_self b fun _ hc => (Memory.mem_erase.1 hc).2

/-- A write leaves every other address alone (R58, R59). -/
theorem Memory.read_write_of_ne {m : Memory} {a b : Nat} (v : Byte) (h : a ≠ b) :
    (m.write a v).read b = m.read b := by
  unfold Memory.write
  split
  · exact Memory.read_erase_of_ne h
  · rw [Memory.read_insertCell_of_ne v h, Memory.read_erase_of_ne h]

theorem Memory.read_write (m : Memory) (a b : Nat) (v : Byte) :
    (m.write a v).read b = if a = b then v else m.read b := by
  split
  · subst ‹a = b›; exact Memory.read_write_self m a v
  · exact Memory.read_write_of_ne v ‹_›

/-- Byte `j` of the stored bytes is at `a + j`; every other address reads as before. -/
theorem Memory.read_writeBytes (m : Memory) (a : Nat) (bs : List Byte) (k : Nat) :
    (m.writeBytes a bs).read k =
      if h : a ≤ k ∧ k - a < bs.length then bs[k - a]'h.2 else m.read k := by
  induction bs generalizing m a with
  | nil => simp [Memory.writeBytes]
  | cons b bs ih =>
    rw [Memory.writeBytes, ih]
    by_cases hk : a = k
    · subst hk; simp
    · by_cases h1 : a + 1 ≤ k ∧ k - (a + 1) < bs.length
      · rw [dif_pos h1, dif_pos (by simp; omega)]
        simp [show k - a = (k - (a + 1)) + 1 by omega]
      · rw [dif_neg h1, dif_neg (by simp; omega), Memory.read_write_of_ne b hk]

theorem Memory.wf_nil : Memory.wf [] := by simp [Memory.wf]

theorem Memory.erase_keeps_wf {m : Memory} (h : m.wf) (a : Nat) : (m.erase a).wf :=
  ⟨h.1.filter _, fun c hc => h.2 c (Memory.mem_erase.1 hc).1⟩

theorem Memory.mem_insertCell {m : Memory} {a : Nat} {b : Byte} {c : Host.Cell} :
    c ∈ m.insertCell a b ↔ c = (a, b) ∨ c ∈ m := by
  induction m with
  | nil => simp [Memory.insertCell]
  | cons d m ih =>
    unfold Memory.insertCell
    split
    · simp
    · simp only [List.mem_cons, ih]; tauto

theorem Memory.insertCell_keeps_sorted {m : Memory} {a : Nat} (b : Byte)
    (h : m.Pairwise fun c d => c.1 < d.1) (ha : ∀ c ∈ m, c.1 ≠ a) :
    (m.insertCell a b).Pairwise fun c d => c.1 < d.1 := by
  induction m with
  | nil => simp [Memory.insertCell]
  | cons c m ih =>
    obtain ⟨hc, hm⟩ := List.pairwise_cons.1 h
    unfold Memory.insertCell
    split
    · refine List.pairwise_cons.2 ⟨fun d hd => ?_, h⟩
      rcases List.mem_cons.1 hd with rfl | hd
      · assumption
      · have := hc d hd; omega
    · have hca := ha c (by simp)
      refine List.pairwise_cons.2 ⟨fun d hd => ?_, ih hm fun d hd => ha d (by simp [hd])⟩
      rcases Memory.mem_insertCell.1 hd with rfl | hd
      · show c.1 < a; omega
      · exact hc d hd

/-- A write inside the address space keeps the canonical form. -/
theorem Memory.write_keeps_wf {m : Memory} (h : m.wf) {a : Nat} (ha : a < Config.memSize) (b : Byte) :
    (m.write a b).wf := by
  have he := Memory.erase_keeps_wf h a
  unfold Memory.write
  split
  · exact he
  · refine ⟨Memory.insertCell_keeps_sorted b he.1 fun _ hc => (Memory.mem_erase.1 hc).2, fun c hc => ?_⟩
    rcases Memory.mem_insertCell.1 hc with rfl | hc
    · exact ⟨ha, ‹_›⟩
    · exact he.2 c hc

theorem Memory.writeBytes_keeps_wf {m : Memory} (h : m.wf) {a : Nat} {bs : List Byte}
    (ha : a + bs.length ≤ Config.memSize) : (m.writeBytes a bs).wf := by
  induction bs generalizing m a with
  | nil => exact h
  | cons b bs ih =>
    have hl : a + (bs.length + 1) ≤ Config.memSize := ha
    exact ih (Memory.write_keeps_wf h (by omega) b) (by omega)

/-- The program area reads as zero where nothing is written (R51, R272). -/
theorem resetByte_program {a : Nat} (h : Config.loadAddr ≤ a) : resetByte a = 0 := if_pos h

end Sys2Proof.Machine
end

