-- ==== Sys2Proof/Laws/State.lean ====
section
/-! SUPPORT. What each update of the state does to each field: one lemma per field per update. -/

namespace Sys2Proof.Machine

variable (s : State)

@[simp] theorem State.setReg_v (x : RegIdx) (b : Byte) : (s.setReg x b).v = s.v.set x.toNat b (by have := x.isLt; omega) := rfl
@[simp] theorem State.setReg_i (x : RegIdx) (b : Byte) : (s.setReg x b).i = s.i := rfl
@[simp] theorem State.setReg_pc (x : RegIdx) (b : Byte) : (s.setReg x b).pc = s.pc := rfl
@[simp] theorem State.setReg_sp (x : RegIdx) (b : Byte) : (s.setReg x b).sp = s.sp := rfl
@[simp] theorem State.setReg_stack (x : RegIdx) (b : Byte) : (s.setReg x b).stack = s.stack := rfl
@[simp] theorem State.setReg_mem (x : RegIdx) (b : Byte) : (s.setReg x b).mem = s.mem := rfl
@[simp] theorem State.setReg_disp (x : RegIdx) (b : Byte) : (s.setReg x b).disp = s.disp := rfl
@[simp] theorem State.setReg_dt (x : RegIdx) (b : Byte) : (s.setReg x b).dt = s.dt := rfl
@[simp] theorem State.setReg_st (x : RegIdx) (b : Byte) : (s.setReg x b).st = s.st := rfl
@[simp] theorem State.setReg_key (x : RegIdx) (b : Byte) : (s.setReg x b).key = s.key := rfl
@[simp] theorem State.setReg_run (x : RegIdx) (b : Byte) : (s.setReg x b).run = s.run := rfl
@[simp] theorem State.setReg_cpuAcc (x : RegIdx) (b : Byte) : (s.setReg x b).cpuAcc = s.cpuAcc := rfl
@[simp] theorem State.setReg_tickAcc (x : RegIdx) (b : Byte) : (s.setReg x b).tickAcc = s.tickAcc := rfl
@[simp] theorem State.setReg_schip (x : RegIdx) (b : Byte) : (s.setReg x b).schip = s.schip := rfl
@[simp] theorem State.setReg_trace (x : RegIdx) (b : Byte) : (s.setReg x b).trace = s.trace := rfl
@[simp] theorem State.setReg_rflick (x : RegIdx) (b : Byte) : (s.setReg x b).rflick = s.rflick := rfl
@[simp] theorem State.setReg_cpuHz (x : RegIdx) (b : Byte) : (s.setReg x b).cpuHz = s.cpuHz := rfl
@[simp] theorem State.setReg_romLen (x : RegIdx) (b : Byte) : (s.setReg x b).romLen = s.romLen := rfl
@[simp] theorem State.setReg_rom (x : RegIdx) (b : Byte) : (s.setReg x b).rom = s.rom := rfl
@[simp] theorem State.setReg_fault (x : RegIdx) (b : Byte) : (s.setReg x b).fault = s.fault := rfl
@[simp] theorem State.setReg_fetchWord (x : RegIdx) (b : Byte) : (s.setReg x b).fetchWord = s.fetchWord := rfl
@[simp] theorem State.setReg_fetchAddr (x : RegIdx) (b : Byte) : (s.setReg x b).fetchAddr = s.fetchAddr := rfl
@[simp] theorem State.setReg_drew (x : RegIdx) (b : Byte) : (s.setReg x b).drew = s.drew := rfl
@[simp] theorem State.setReg_beep (x : RegIdx) (b : Byte) : (s.setReg x b).beep = s.beep := rfl
@[simp] theorem State.setReg_draws (x : RegIdx) (b : Byte) : (s.setReg x b).draws = s.draws := rfl
@[simp] theorem State.setReg_steps (x : RegIdx) (b : Byte) : (s.setReg x b).steps = s.steps := rfl
@[simp] theorem State.setReg_keyAt (x : RegIdx) (b : Byte) (j : RegIdx) : (s.setReg x b).keyAt j = s.keyAt j := rfl
@[simp] theorem State.setReg_cell (x : RegIdx) (b : Byte) (p q : Nat) : (s.setReg x b).cell p q = s.cell p q := rfl
@[simp] theorem State.setReg_on (x : RegIdx) (b : Byte) (p q : Nat) : (s.setReg x b).on p q = s.on p q := rfl
@[simp] theorem State.setReg_rand (x : RegIdx) (b : Byte) : (s.setReg x b).rand = s.rand := rfl

@[simp] theorem State.setI_v (a : Word) : (s.setI a).v = s.v := rfl
@[simp] theorem State.setI_i (a : Word) : (s.setI a).i = a := rfl
@[simp] theorem State.setI_pc (a : Word) : (s.setI a).pc = s.pc := rfl
@[simp] theorem State.setI_sp (a : Word) : (s.setI a).sp = s.sp := rfl
@[simp] theorem State.setI_stack (a : Word) : (s.setI a).stack = s.stack := rfl
@[simp] theorem State.setI_mem (a : Word) : (s.setI a).mem = s.mem := rfl
@[simp] theorem State.setI_disp (a : Word) : (s.setI a).disp = s.disp := rfl
@[simp] theorem State.setI_dt (a : Word) : (s.setI a).dt = s.dt := rfl
@[simp] theorem State.setI_st (a : Word) : (s.setI a).st = s.st := rfl
@[simp] theorem State.setI_key (a : Word) : (s.setI a).key = s.key := rfl
@[simp] theorem State.setI_run (a : Word) : (s.setI a).run = s.run := rfl
@[simp] theorem State.setI_cpuAcc (a : Word) : (s.setI a).cpuAcc = s.cpuAcc := rfl
@[simp] theorem State.setI_tickAcc (a : Word) : (s.setI a).tickAcc = s.tickAcc := rfl
@[simp] theorem State.setI_schip (a : Word) : (s.setI a).schip = s.schip := rfl
@[simp] theorem State.setI_trace (a : Word) : (s.setI a).trace = s.trace := rfl
@[simp] theorem State.setI_rflick (a : Word) : (s.setI a).rflick = s.rflick := rfl
@[simp] theorem State.setI_cpuHz (a : Word) : (s.setI a).cpuHz = s.cpuHz := rfl
@[simp] theorem State.setI_romLen (a : Word) : (s.setI a).romLen = s.romLen := rfl
@[simp] theorem State.setI_rom (a : Word) : (s.setI a).rom = s.rom := rfl
@[simp] theorem State.setI_fault (a : Word) : (s.setI a).fault = s.fault := rfl
@[simp] theorem State.setI_fetchWord (a : Word) : (s.setI a).fetchWord = s.fetchWord := rfl
@[simp] theorem State.setI_fetchAddr (a : Word) : (s.setI a).fetchAddr = s.fetchAddr := rfl
@[simp] theorem State.setI_drew (a : Word) : (s.setI a).drew = s.drew := rfl
@[simp] theorem State.setI_beep (a : Word) : (s.setI a).beep = s.beep := rfl
@[simp] theorem State.setI_draws (a : Word) : (s.setI a).draws = s.draws := rfl
@[simp] theorem State.setI_steps (a : Word) : (s.setI a).steps = s.steps := rfl
@[simp] theorem State.setI_reg (a : Word) (y : RegIdx) : (s.setI a).reg y = s.reg y := rfl
@[simp] theorem State.setI_keyAt (a : Word) (j : RegIdx) : (s.setI a).keyAt j = s.keyAt j := rfl
@[simp] theorem State.setI_cell (a : Word) (p q : Nat) : (s.setI a).cell p q = s.cell p q := rfl
@[simp] theorem State.setI_on (a : Word) (p q : Nat) : (s.setI a).on p q = s.on p q := rfl
@[simp] theorem State.setI_rand (a : Word) : (s.setI a).rand = s.rand := rfl

@[simp] theorem State.setPc_v (a : Word) : (s.setPc a).v = s.v := rfl
@[simp] theorem State.setPc_i (a : Word) : (s.setPc a).i = s.i := rfl
@[simp] theorem State.setPc_pc (a : Word) : (s.setPc a).pc = a := rfl
@[simp] theorem State.setPc_sp (a : Word) : (s.setPc a).sp = s.sp := rfl
@[simp] theorem State.setPc_stack (a : Word) : (s.setPc a).stack = s.stack := rfl
@[simp] theorem State.setPc_mem (a : Word) : (s.setPc a).mem = s.mem := rfl
@[simp] theorem State.setPc_disp (a : Word) : (s.setPc a).disp = s.disp := rfl
@[simp] theorem State.setPc_dt (a : Word) : (s.setPc a).dt = s.dt := rfl
@[simp] theorem State.setPc_st (a : Word) : (s.setPc a).st = s.st := rfl
@[simp] theorem State.setPc_key (a : Word) : (s.setPc a).key = s.key := rfl
@[simp] theorem State.setPc_run (a : Word) : (s.setPc a).run = s.run := rfl
@[simp] theorem State.setPc_cpuAcc (a : Word) : (s.setPc a).cpuAcc = s.cpuAcc := rfl
@[simp] theorem State.setPc_tickAcc (a : Word) : (s.setPc a).tickAcc = s.tickAcc := rfl
@[simp] theorem State.setPc_schip (a : Word) : (s.setPc a).schip = s.schip := rfl
@[simp] theorem State.setPc_trace (a : Word) : (s.setPc a).trace = s.trace := rfl
@[simp] theorem State.setPc_rflick (a : Word) : (s.setPc a).rflick = s.rflick := rfl
@[simp] theorem State.setPc_cpuHz (a : Word) : (s.setPc a).cpuHz = s.cpuHz := rfl
@[simp] theorem State.setPc_romLen (a : Word) : (s.setPc a).romLen = s.romLen := rfl
@[simp] theorem State.setPc_rom (a : Word) : (s.setPc a).rom = s.rom := rfl
@[simp] theorem State.setPc_fault (a : Word) : (s.setPc a).fault = s.fault := rfl
@[simp] theorem State.setPc_fetchWord (a : Word) : (s.setPc a).fetchWord = s.fetchWord := rfl
@[simp] theorem State.setPc_fetchAddr (a : Word) : (s.setPc a).fetchAddr = s.fetchAddr := rfl
@[simp] theorem State.setPc_drew (a : Word) : (s.setPc a).drew = s.drew := rfl
@[simp] theorem State.setPc_beep (a : Word) : (s.setPc a).beep = s.beep := rfl
@[simp] theorem State.setPc_draws (a : Word) : (s.setPc a).draws = s.draws := rfl
@[simp] theorem State.setPc_steps (a : Word) : (s.setPc a).steps = s.steps := rfl
@[simp] theorem State.setPc_reg (a : Word) (y : RegIdx) : (s.setPc a).reg y = s.reg y := rfl
@[simp] theorem State.setPc_keyAt (a : Word) (j : RegIdx) : (s.setPc a).keyAt j = s.keyAt j := rfl
@[simp] theorem State.setPc_cell (a : Word) (p q : Nat) : (s.setPc a).cell p q = s.cell p q := rfl
@[simp] theorem State.setPc_on (a : Word) (p q : Nat) : (s.setPc a).on p q = s.on p q := rfl
@[simp] theorem State.setPc_rand (a : Word) : (s.setPc a).rand = s.rand := rfl

@[simp] theorem State.setSp_v (n : Fin 17) : (s.setSp n).v = s.v := rfl
@[simp] theorem State.setSp_i (n : Fin 17) : (s.setSp n).i = s.i := rfl
@[simp] theorem State.setSp_pc (n : Fin 17) : (s.setSp n).pc = s.pc := rfl
@[simp] theorem State.setSp_sp (n : Fin 17) : (s.setSp n).sp = n := rfl
@[simp] theorem State.setSp_stack (n : Fin 17) : (s.setSp n).stack = s.stack := rfl
@[simp] theorem State.setSp_mem (n : Fin 17) : (s.setSp n).mem = s.mem := rfl
@[simp] theorem State.setSp_disp (n : Fin 17) : (s.setSp n).disp = s.disp := rfl
@[simp] theorem State.setSp_dt (n : Fin 17) : (s.setSp n).dt = s.dt := rfl
@[simp] theorem State.setSp_st (n : Fin 17) : (s.setSp n).st = s.st := rfl
@[simp] theorem State.setSp_key (n : Fin 17) : (s.setSp n).key = s.key := rfl
@[simp] theorem State.setSp_run (n : Fin 17) : (s.setSp n).run = s.run := rfl
@[simp] theorem State.setSp_cpuAcc (n : Fin 17) : (s.setSp n).cpuAcc = s.cpuAcc := rfl
@[simp] theorem State.setSp_tickAcc (n : Fin 17) : (s.setSp n).tickAcc = s.tickAcc := rfl
@[simp] theorem State.setSp_schip (n : Fin 17) : (s.setSp n).schip = s.schip := rfl
@[simp] theorem State.setSp_trace (n : Fin 17) : (s.setSp n).trace = s.trace := rfl
@[simp] theorem State.setSp_rflick (n : Fin 17) : (s.setSp n).rflick = s.rflick := rfl
@[simp] theorem State.setSp_cpuHz (n : Fin 17) : (s.setSp n).cpuHz = s.cpuHz := rfl
@[simp] theorem State.setSp_romLen (n : Fin 17) : (s.setSp n).romLen = s.romLen := rfl
@[simp] theorem State.setSp_rom (n : Fin 17) : (s.setSp n).rom = s.rom := rfl
@[simp] theorem State.setSp_fault (n : Fin 17) : (s.setSp n).fault = s.fault := rfl
@[simp] theorem State.setSp_fetchWord (n : Fin 17) : (s.setSp n).fetchWord = s.fetchWord := rfl
@[simp] theorem State.setSp_fetchAddr (n : Fin 17) : (s.setSp n).fetchAddr = s.fetchAddr := rfl
@[simp] theorem State.setSp_drew (n : Fin 17) : (s.setSp n).drew = s.drew := rfl
@[simp] theorem State.setSp_beep (n : Fin 17) : (s.setSp n).beep = s.beep := rfl
@[simp] theorem State.setSp_draws (n : Fin 17) : (s.setSp n).draws = s.draws := rfl
@[simp] theorem State.setSp_steps (n : Fin 17) : (s.setSp n).steps = s.steps := rfl
@[simp] theorem State.setSp_reg (n : Fin 17) (y : RegIdx) : (s.setSp n).reg y = s.reg y := rfl
@[simp] theorem State.setSp_keyAt (n : Fin 17) (j : RegIdx) : (s.setSp n).keyAt j = s.keyAt j := rfl
@[simp] theorem State.setSp_cell (n : Fin 17) (p q : Nat) : (s.setSp n).cell p q = s.cell p q := rfl
@[simp] theorem State.setSp_on (n : Fin 17) (p q : Nat) : (s.setSp n).on p q = s.on p q := rfl
@[simp] theorem State.setSp_rand (n : Fin 17) : (s.setSp n).rand = s.rand := rfl

@[simp] theorem State.setStack_v (k : Vector Word 16) : (s.setStack k).v = s.v := rfl
@[simp] theorem State.setStack_i (k : Vector Word 16) : (s.setStack k).i = s.i := rfl
@[simp] theorem State.setStack_pc (k : Vector Word 16) : (s.setStack k).pc = s.pc := rfl
@[simp] theorem State.setStack_sp (k : Vector Word 16) : (s.setStack k).sp = s.sp := rfl
@[simp] theorem State.setStack_stack (k : Vector Word 16) : (s.setStack k).stack = k := rfl
@[simp] theorem State.setStack_mem (k : Vector Word 16) : (s.setStack k).mem = s.mem := rfl
@[simp] theorem State.setStack_disp (k : Vector Word 16) : (s.setStack k).disp = s.disp := rfl
@[simp] theorem State.setStack_dt (k : Vector Word 16) : (s.setStack k).dt = s.dt := rfl
@[simp] theorem State.setStack_st (k : Vector Word 16) : (s.setStack k).st = s.st := rfl
@[simp] theorem State.setStack_key (k : Vector Word 16) : (s.setStack k).key = s.key := rfl
@[simp] theorem State.setStack_run (k : Vector Word 16) : (s.setStack k).run = s.run := rfl
@[simp] theorem State.setStack_cpuAcc (k : Vector Word 16) : (s.setStack k).cpuAcc = s.cpuAcc := rfl
@[simp] theorem State.setStack_tickAcc (k : Vector Word 16) : (s.setStack k).tickAcc = s.tickAcc := rfl
@[simp] theorem State.setStack_schip (k : Vector Word 16) : (s.setStack k).schip = s.schip := rfl
@[simp] theorem State.setStack_trace (k : Vector Word 16) : (s.setStack k).trace = s.trace := rfl
@[simp] theorem State.setStack_rflick (k : Vector Word 16) : (s.setStack k).rflick = s.rflick := rfl
@[simp] theorem State.setStack_cpuHz (k : Vector Word 16) : (s.setStack k).cpuHz = s.cpuHz := rfl
@[simp] theorem State.setStack_romLen (k : Vector Word 16) : (s.setStack k).romLen = s.romLen := rfl
@[simp] theorem State.setStack_rom (k : Vector Word 16) : (s.setStack k).rom = s.rom := rfl
@[simp] theorem State.setStack_fault (k : Vector Word 16) : (s.setStack k).fault = s.fault := rfl
@[simp] theorem State.setStack_fetchWord (k : Vector Word 16) : (s.setStack k).fetchWord = s.fetchWord := rfl
@[simp] theorem State.setStack_fetchAddr (k : Vector Word 16) : (s.setStack k).fetchAddr = s.fetchAddr := rfl
@[simp] theorem State.setStack_drew (k : Vector Word 16) : (s.setStack k).drew = s.drew := rfl
@[simp] theorem State.setStack_beep (k : Vector Word 16) : (s.setStack k).beep = s.beep := rfl
@[simp] theorem State.setStack_draws (k : Vector Word 16) : (s.setStack k).draws = s.draws := rfl
@[simp] theorem State.setStack_steps (k : Vector Word 16) : (s.setStack k).steps = s.steps := rfl
@[simp] theorem State.setStack_reg (k : Vector Word 16) (y : RegIdx) : (s.setStack k).reg y = s.reg y := rfl
@[simp] theorem State.setStack_keyAt (k : Vector Word 16) (j : RegIdx) : (s.setStack k).keyAt j = s.keyAt j := rfl
@[simp] theorem State.setStack_cell (k : Vector Word 16) (p q : Nat) : (s.setStack k).cell p q = s.cell p q := rfl
@[simp] theorem State.setStack_on (k : Vector Word 16) (p q : Nat) : (s.setStack k).on p q = s.on p q := rfl
@[simp] theorem State.setStack_rand (k : Vector Word 16) : (s.setStack k).rand = s.rand := rfl

@[simp] theorem State.setMem_v (m : Memory) : (s.setMem m).v = s.v := rfl
@[simp] theorem State.setMem_i (m : Memory) : (s.setMem m).i = s.i := rfl
@[simp] theorem State.setMem_pc (m : Memory) : (s.setMem m).pc = s.pc := rfl
@[simp] theorem State.setMem_sp (m : Memory) : (s.setMem m).sp = s.sp := rfl
@[simp] theorem State.setMem_stack (m : Memory) : (s.setMem m).stack = s.stack := rfl
@[simp] theorem State.setMem_mem (m : Memory) : (s.setMem m).mem = m := rfl
@[simp] theorem State.setMem_disp (m : Memory) : (s.setMem m).disp = s.disp := rfl
@[simp] theorem State.setMem_dt (m : Memory) : (s.setMem m).dt = s.dt := rfl
@[simp] theorem State.setMem_st (m : Memory) : (s.setMem m).st = s.st := rfl
@[simp] theorem State.setMem_key (m : Memory) : (s.setMem m).key = s.key := rfl
@[simp] theorem State.setMem_run (m : Memory) : (s.setMem m).run = s.run := rfl
@[simp] theorem State.setMem_cpuAcc (m : Memory) : (s.setMem m).cpuAcc = s.cpuAcc := rfl
@[simp] theorem State.setMem_tickAcc (m : Memory) : (s.setMem m).tickAcc = s.tickAcc := rfl
@[simp] theorem State.setMem_schip (m : Memory) : (s.setMem m).schip = s.schip := rfl
@[simp] theorem State.setMem_trace (m : Memory) : (s.setMem m).trace = s.trace := rfl
@[simp] theorem State.setMem_rflick (m : Memory) : (s.setMem m).rflick = s.rflick := rfl
@[simp] theorem State.setMem_cpuHz (m : Memory) : (s.setMem m).cpuHz = s.cpuHz := rfl
@[simp] theorem State.setMem_romLen (m : Memory) : (s.setMem m).romLen = s.romLen := rfl
@[simp] theorem State.setMem_rom (m : Memory) : (s.setMem m).rom = s.rom := rfl
@[simp] theorem State.setMem_fault (m : Memory) : (s.setMem m).fault = s.fault := rfl
@[simp] theorem State.setMem_fetchWord (m : Memory) : (s.setMem m).fetchWord = s.fetchWord := rfl
@[simp] theorem State.setMem_fetchAddr (m : Memory) : (s.setMem m).fetchAddr = s.fetchAddr := rfl
@[simp] theorem State.setMem_drew (m : Memory) : (s.setMem m).drew = s.drew := rfl
@[simp] theorem State.setMem_beep (m : Memory) : (s.setMem m).beep = s.beep := rfl
@[simp] theorem State.setMem_draws (m : Memory) : (s.setMem m).draws = s.draws := rfl
@[simp] theorem State.setMem_steps (m : Memory) : (s.setMem m).steps = s.steps := rfl
@[simp] theorem State.setMem_reg (m : Memory) (y : RegIdx) : (s.setMem m).reg y = s.reg y := rfl
@[simp] theorem State.setMem_keyAt (m : Memory) (j : RegIdx) : (s.setMem m).keyAt j = s.keyAt j := rfl
@[simp] theorem State.setMem_cell (m : Memory) (p q : Nat) : (s.setMem m).cell p q = s.cell p q := rfl
@[simp] theorem State.setMem_on (m : Memory) (p q : Nat) : (s.setMem m).on p q = s.on p q := rfl
@[simp] theorem State.setMem_rand (m : Memory) : (s.setMem m).rand = s.rand := rfl

@[simp] theorem State.setDisp_v (d : Display) : (s.setDisp d).v = s.v := rfl
@[simp] theorem State.setDisp_i (d : Display) : (s.setDisp d).i = s.i := rfl
@[simp] theorem State.setDisp_pc (d : Display) : (s.setDisp d).pc = s.pc := rfl
@[simp] theorem State.setDisp_sp (d : Display) : (s.setDisp d).sp = s.sp := rfl
@[simp] theorem State.setDisp_stack (d : Display) : (s.setDisp d).stack = s.stack := rfl
@[simp] theorem State.setDisp_mem (d : Display) : (s.setDisp d).mem = s.mem := rfl
@[simp] theorem State.setDisp_disp (d : Display) : (s.setDisp d).disp = d := rfl
@[simp] theorem State.setDisp_dt (d : Display) : (s.setDisp d).dt = s.dt := rfl
@[simp] theorem State.setDisp_st (d : Display) : (s.setDisp d).st = s.st := rfl
@[simp] theorem State.setDisp_key (d : Display) : (s.setDisp d).key = s.key := rfl
@[simp] theorem State.setDisp_run (d : Display) : (s.setDisp d).run = s.run := rfl
@[simp] theorem State.setDisp_cpuAcc (d : Display) : (s.setDisp d).cpuAcc = s.cpuAcc := rfl
@[simp] theorem State.setDisp_tickAcc (d : Display) : (s.setDisp d).tickAcc = s.tickAcc := rfl
@[simp] theorem State.setDisp_schip (d : Display) : (s.setDisp d).schip = s.schip := rfl
@[simp] theorem State.setDisp_trace (d : Display) : (s.setDisp d).trace = s.trace := rfl
@[simp] theorem State.setDisp_rflick (d : Display) : (s.setDisp d).rflick = s.rflick := rfl
@[simp] theorem State.setDisp_cpuHz (d : Display) : (s.setDisp d).cpuHz = s.cpuHz := rfl
@[simp] theorem State.setDisp_romLen (d : Display) : (s.setDisp d).romLen = s.romLen := rfl
@[simp] theorem State.setDisp_rom (d : Display) : (s.setDisp d).rom = s.rom := rfl
@[simp] theorem State.setDisp_fault (d : Display) : (s.setDisp d).fault = s.fault := rfl
@[simp] theorem State.setDisp_fetchWord (d : Display) : (s.setDisp d).fetchWord = s.fetchWord := rfl
@[simp] theorem State.setDisp_fetchAddr (d : Display) : (s.setDisp d).fetchAddr = s.fetchAddr := rfl
@[simp] theorem State.setDisp_drew (d : Display) : (s.setDisp d).drew = s.drew := rfl
@[simp] theorem State.setDisp_beep (d : Display) : (s.setDisp d).beep = s.beep := rfl
@[simp] theorem State.setDisp_draws (d : Display) : (s.setDisp d).draws = s.draws := rfl
@[simp] theorem State.setDisp_steps (d : Display) : (s.setDisp d).steps = s.steps := rfl
@[simp] theorem State.setDisp_reg (d : Display) (y : RegIdx) : (s.setDisp d).reg y = s.reg y := rfl
@[simp] theorem State.setDisp_keyAt (d : Display) (j : RegIdx) : (s.setDisp d).keyAt j = s.keyAt j := rfl
@[simp] theorem State.setDisp_rand (d : Display) : (s.setDisp d).rand = s.rand := rfl

@[simp] theorem State.setDt_v (b : Byte) : (s.setDt b).v = s.v := rfl
@[simp] theorem State.setDt_i (b : Byte) : (s.setDt b).i = s.i := rfl
@[simp] theorem State.setDt_pc (b : Byte) : (s.setDt b).pc = s.pc := rfl
@[simp] theorem State.setDt_sp (b : Byte) : (s.setDt b).sp = s.sp := rfl
@[simp] theorem State.setDt_stack (b : Byte) : (s.setDt b).stack = s.stack := rfl
@[simp] theorem State.setDt_mem (b : Byte) : (s.setDt b).mem = s.mem := rfl
@[simp] theorem State.setDt_disp (b : Byte) : (s.setDt b).disp = s.disp := rfl
@[simp] theorem State.setDt_dt (b : Byte) : (s.setDt b).dt = b := rfl
@[simp] theorem State.setDt_st (b : Byte) : (s.setDt b).st = s.st := rfl
@[simp] theorem State.setDt_key (b : Byte) : (s.setDt b).key = s.key := rfl
@[simp] theorem State.setDt_run (b : Byte) : (s.setDt b).run = s.run := rfl
@[simp] theorem State.setDt_cpuAcc (b : Byte) : (s.setDt b).cpuAcc = s.cpuAcc := rfl
@[simp] theorem State.setDt_tickAcc (b : Byte) : (s.setDt b).tickAcc = s.tickAcc := rfl
@[simp] theorem State.setDt_schip (b : Byte) : (s.setDt b).schip = s.schip := rfl
@[simp] theorem State.setDt_trace (b : Byte) : (s.setDt b).trace = s.trace := rfl
@[simp] theorem State.setDt_rflick (b : Byte) : (s.setDt b).rflick = s.rflick := rfl
@[simp] theorem State.setDt_cpuHz (b : Byte) : (s.setDt b).cpuHz = s.cpuHz := rfl
@[simp] theorem State.setDt_romLen (b : Byte) : (s.setDt b).romLen = s.romLen := rfl
@[simp] theorem State.setDt_rom (b : Byte) : (s.setDt b).rom = s.rom := rfl
@[simp] theorem State.setDt_fault (b : Byte) : (s.setDt b).fault = s.fault := rfl
@[simp] theorem State.setDt_fetchWord (b : Byte) : (s.setDt b).fetchWord = s.fetchWord := rfl
@[simp] theorem State.setDt_fetchAddr (b : Byte) : (s.setDt b).fetchAddr = s.fetchAddr := rfl
@[simp] theorem State.setDt_drew (b : Byte) : (s.setDt b).drew = s.drew := rfl
@[simp] theorem State.setDt_beep (b : Byte) : (s.setDt b).beep = s.beep := rfl
@[simp] theorem State.setDt_draws (b : Byte) : (s.setDt b).draws = s.draws := rfl
@[simp] theorem State.setDt_steps (b : Byte) : (s.setDt b).steps = s.steps := rfl
@[simp] theorem State.setDt_reg (b : Byte) (y : RegIdx) : (s.setDt b).reg y = s.reg y := rfl
@[simp] theorem State.setDt_keyAt (b : Byte) (j : RegIdx) : (s.setDt b).keyAt j = s.keyAt j := rfl
@[simp] theorem State.setDt_cell (b : Byte) (p q : Nat) : (s.setDt b).cell p q = s.cell p q := rfl
@[simp] theorem State.setDt_on (b : Byte) (p q : Nat) : (s.setDt b).on p q = s.on p q := rfl
@[simp] theorem State.setDt_rand (b : Byte) : (s.setDt b).rand = s.rand := rfl

@[simp] theorem State.setSt_v (b : Byte) : (s.setSt b).v = s.v := rfl
@[simp] theorem State.setSt_i (b : Byte) : (s.setSt b).i = s.i := rfl
@[simp] theorem State.setSt_pc (b : Byte) : (s.setSt b).pc = s.pc := rfl
@[simp] theorem State.setSt_sp (b : Byte) : (s.setSt b).sp = s.sp := rfl
@[simp] theorem State.setSt_stack (b : Byte) : (s.setSt b).stack = s.stack := rfl
@[simp] theorem State.setSt_mem (b : Byte) : (s.setSt b).mem = s.mem := rfl
@[simp] theorem State.setSt_disp (b : Byte) : (s.setSt b).disp = s.disp := rfl
@[simp] theorem State.setSt_dt (b : Byte) : (s.setSt b).dt = s.dt := rfl
@[simp] theorem State.setSt_st (b : Byte) : (s.setSt b).st = b := rfl
@[simp] theorem State.setSt_key (b : Byte) : (s.setSt b).key = s.key := rfl
@[simp] theorem State.setSt_run (b : Byte) : (s.setSt b).run = s.run := rfl
@[simp] theorem State.setSt_cpuAcc (b : Byte) : (s.setSt b).cpuAcc = s.cpuAcc := rfl
@[simp] theorem State.setSt_tickAcc (b : Byte) : (s.setSt b).tickAcc = s.tickAcc := rfl
@[simp] theorem State.setSt_schip (b : Byte) : (s.setSt b).schip = s.schip := rfl
@[simp] theorem State.setSt_trace (b : Byte) : (s.setSt b).trace = s.trace := rfl
@[simp] theorem State.setSt_rflick (b : Byte) : (s.setSt b).rflick = s.rflick := rfl
@[simp] theorem State.setSt_cpuHz (b : Byte) : (s.setSt b).cpuHz = s.cpuHz := rfl
@[simp] theorem State.setSt_romLen (b : Byte) : (s.setSt b).romLen = s.romLen := rfl
@[simp] theorem State.setSt_rom (b : Byte) : (s.setSt b).rom = s.rom := rfl
@[simp] theorem State.setSt_fault (b : Byte) : (s.setSt b).fault = s.fault := rfl
@[simp] theorem State.setSt_fetchWord (b : Byte) : (s.setSt b).fetchWord = s.fetchWord := rfl
@[simp] theorem State.setSt_fetchAddr (b : Byte) : (s.setSt b).fetchAddr = s.fetchAddr := rfl
@[simp] theorem State.setSt_drew (b : Byte) : (s.setSt b).drew = s.drew := rfl
@[simp] theorem State.setSt_beep (b : Byte) : (s.setSt b).beep = s.beep := rfl
@[simp] theorem State.setSt_draws (b : Byte) : (s.setSt b).draws = s.draws := rfl
@[simp] theorem State.setSt_steps (b : Byte) : (s.setSt b).steps = s.steps := rfl
@[simp] theorem State.setSt_reg (b : Byte) (y : RegIdx) : (s.setSt b).reg y = s.reg y := rfl
@[simp] theorem State.setSt_keyAt (b : Byte) (j : RegIdx) : (s.setSt b).keyAt j = s.keyAt j := rfl
@[simp] theorem State.setSt_cell (b : Byte) (p q : Nat) : (s.setSt b).cell p q = s.cell p q := rfl
@[simp] theorem State.setSt_on (b : Byte) (p q : Nat) : (s.setSt b).on p q = s.on p q := rfl
@[simp] theorem State.setSt_rand (b : Byte) : (s.setSt b).rand = s.rand := rfl

@[simp] theorem State.setKeys_v (k : Vector KeyState 16) : (s.setKeys k).v = s.v := rfl
@[simp] theorem State.setKeys_i (k : Vector KeyState 16) : (s.setKeys k).i = s.i := rfl
@[simp] theorem State.setKeys_pc (k : Vector KeyState 16) : (s.setKeys k).pc = s.pc := rfl
@[simp] theorem State.setKeys_sp (k : Vector KeyState 16) : (s.setKeys k).sp = s.sp := rfl
@[simp] theorem State.setKeys_stack (k : Vector KeyState 16) : (s.setKeys k).stack = s.stack := rfl
@[simp] theorem State.setKeys_mem (k : Vector KeyState 16) : (s.setKeys k).mem = s.mem := rfl
@[simp] theorem State.setKeys_disp (k : Vector KeyState 16) : (s.setKeys k).disp = s.disp := rfl
@[simp] theorem State.setKeys_dt (k : Vector KeyState 16) : (s.setKeys k).dt = s.dt := rfl
@[simp] theorem State.setKeys_st (k : Vector KeyState 16) : (s.setKeys k).st = s.st := rfl
@[simp] theorem State.setKeys_key (k : Vector KeyState 16) : (s.setKeys k).key = k := rfl
@[simp] theorem State.setKeys_run (k : Vector KeyState 16) : (s.setKeys k).run = s.run := rfl
@[simp] theorem State.setKeys_cpuAcc (k : Vector KeyState 16) : (s.setKeys k).cpuAcc = s.cpuAcc := rfl
@[simp] theorem State.setKeys_tickAcc (k : Vector KeyState 16) : (s.setKeys k).tickAcc = s.tickAcc := rfl
@[simp] theorem State.setKeys_schip (k : Vector KeyState 16) : (s.setKeys k).schip = s.schip := rfl
@[simp] theorem State.setKeys_trace (k : Vector KeyState 16) : (s.setKeys k).trace = s.trace := rfl
@[simp] theorem State.setKeys_rflick (k : Vector KeyState 16) : (s.setKeys k).rflick = s.rflick := rfl
@[simp] theorem State.setKeys_cpuHz (k : Vector KeyState 16) : (s.setKeys k).cpuHz = s.cpuHz := rfl
@[simp] theorem State.setKeys_romLen (k : Vector KeyState 16) : (s.setKeys k).romLen = s.romLen := rfl
@[simp] theorem State.setKeys_rom (k : Vector KeyState 16) : (s.setKeys k).rom = s.rom := rfl
@[simp] theorem State.setKeys_fault (k : Vector KeyState 16) : (s.setKeys k).fault = s.fault := rfl
@[simp] theorem State.setKeys_fetchWord (k : Vector KeyState 16) : (s.setKeys k).fetchWord = s.fetchWord := rfl
@[simp] theorem State.setKeys_fetchAddr (k : Vector KeyState 16) : (s.setKeys k).fetchAddr = s.fetchAddr := rfl
@[simp] theorem State.setKeys_drew (k : Vector KeyState 16) : (s.setKeys k).drew = s.drew := rfl
@[simp] theorem State.setKeys_beep (k : Vector KeyState 16) : (s.setKeys k).beep = s.beep := rfl
@[simp] theorem State.setKeys_draws (k : Vector KeyState 16) : (s.setKeys k).draws = s.draws := rfl
@[simp] theorem State.setKeys_steps (k : Vector KeyState 16) : (s.setKeys k).steps = s.steps := rfl
@[simp] theorem State.setKeys_reg (k : Vector KeyState 16) (y : RegIdx) : (s.setKeys k).reg y = s.reg y := rfl
@[simp] theorem State.setKeys_cell (k : Vector KeyState 16) (p q : Nat) : (s.setKeys k).cell p q = s.cell p q := rfl
@[simp] theorem State.setKeys_on (k : Vector KeyState 16) (p q : Nat) : (s.setKeys k).on p q = s.on p q := rfl
@[simp] theorem State.setKeys_rand (k : Vector KeyState 16) : (s.setKeys k).rand = s.rand := rfl

@[simp] theorem State.setRun_v (r : RunState) : (s.setRun r).v = s.v := rfl
@[simp] theorem State.setRun_i (r : RunState) : (s.setRun r).i = s.i := rfl
@[simp] theorem State.setRun_pc (r : RunState) : (s.setRun r).pc = s.pc := rfl
@[simp] theorem State.setRun_sp (r : RunState) : (s.setRun r).sp = s.sp := rfl
@[simp] theorem State.setRun_stack (r : RunState) : (s.setRun r).stack = s.stack := rfl
@[simp] theorem State.setRun_mem (r : RunState) : (s.setRun r).mem = s.mem := rfl
@[simp] theorem State.setRun_disp (r : RunState) : (s.setRun r).disp = s.disp := rfl
@[simp] theorem State.setRun_dt (r : RunState) : (s.setRun r).dt = s.dt := rfl
@[simp] theorem State.setRun_st (r : RunState) : (s.setRun r).st = s.st := rfl
@[simp] theorem State.setRun_key (r : RunState) : (s.setRun r).key = s.key := rfl
@[simp] theorem State.setRun_run (r : RunState) : (s.setRun r).run = r := rfl
@[simp] theorem State.setRun_cpuAcc (r : RunState) : (s.setRun r).cpuAcc = s.cpuAcc := rfl
@[simp] theorem State.setRun_tickAcc (r : RunState) : (s.setRun r).tickAcc = s.tickAcc := rfl
@[simp] theorem State.setRun_schip (r : RunState) : (s.setRun r).schip = s.schip := rfl
@[simp] theorem State.setRun_trace (r : RunState) : (s.setRun r).trace = s.trace := rfl
@[simp] theorem State.setRun_rflick (r : RunState) : (s.setRun r).rflick = s.rflick := rfl
@[simp] theorem State.setRun_cpuHz (r : RunState) : (s.setRun r).cpuHz = s.cpuHz := rfl
@[simp] theorem State.setRun_romLen (r : RunState) : (s.setRun r).romLen = s.romLen := rfl
@[simp] theorem State.setRun_rom (r : RunState) : (s.setRun r).rom = s.rom := rfl
@[simp] theorem State.setRun_fault (r : RunState) : (s.setRun r).fault = s.fault := rfl
@[simp] theorem State.setRun_fetchWord (r : RunState) : (s.setRun r).fetchWord = s.fetchWord := rfl
@[simp] theorem State.setRun_fetchAddr (r : RunState) : (s.setRun r).fetchAddr = s.fetchAddr := rfl
@[simp] theorem State.setRun_drew (r : RunState) : (s.setRun r).drew = s.drew := rfl
@[simp] theorem State.setRun_beep (r : RunState) : (s.setRun r).beep = s.beep := rfl
@[simp] theorem State.setRun_draws (r : RunState) : (s.setRun r).draws = s.draws := rfl
@[simp] theorem State.setRun_steps (r : RunState) : (s.setRun r).steps = s.steps := rfl
@[simp] theorem State.setRun_reg (r : RunState) (y : RegIdx) : (s.setRun r).reg y = s.reg y := rfl
@[simp] theorem State.setRun_keyAt (r : RunState) (j : RegIdx) : (s.setRun r).keyAt j = s.keyAt j := rfl
@[simp] theorem State.setRun_cell (r : RunState) (p q : Nat) : (s.setRun r).cell p q = s.cell p q := rfl
@[simp] theorem State.setRun_on (r : RunState) (p q : Nat) : (s.setRun r).on p q = s.on p q := rfl
@[simp] theorem State.setRun_rand (r : RunState) : (s.setRun r).rand = s.rand := rfl

@[simp] theorem State.setAccs_v (c t : Rat) : (s.setAccs c t).v = s.v := rfl
@[simp] theorem State.setAccs_i (c t : Rat) : (s.setAccs c t).i = s.i := rfl
@[simp] theorem State.setAccs_pc (c t : Rat) : (s.setAccs c t).pc = s.pc := rfl
@[simp] theorem State.setAccs_sp (c t : Rat) : (s.setAccs c t).sp = s.sp := rfl
@[simp] theorem State.setAccs_stack (c t : Rat) : (s.setAccs c t).stack = s.stack := rfl
@[simp] theorem State.setAccs_mem (c t : Rat) : (s.setAccs c t).mem = s.mem := rfl
@[simp] theorem State.setAccs_disp (c t : Rat) : (s.setAccs c t).disp = s.disp := rfl
@[simp] theorem State.setAccs_dt (c t : Rat) : (s.setAccs c t).dt = s.dt := rfl
@[simp] theorem State.setAccs_st (c t : Rat) : (s.setAccs c t).st = s.st := rfl
@[simp] theorem State.setAccs_key (c t : Rat) : (s.setAccs c t).key = s.key := rfl
@[simp] theorem State.setAccs_run (c t : Rat) : (s.setAccs c t).run = s.run := rfl
@[simp] theorem State.setAccs_cpuAcc (c t : Rat) : (s.setAccs c t).cpuAcc = c := rfl
@[simp] theorem State.setAccs_tickAcc (c t : Rat) : (s.setAccs c t).tickAcc = t := rfl
@[simp] theorem State.setAccs_schip (c t : Rat) : (s.setAccs c t).schip = s.schip := rfl
@[simp] theorem State.setAccs_trace (c t : Rat) : (s.setAccs c t).trace = s.trace := rfl
@[simp] theorem State.setAccs_rflick (c t : Rat) : (s.setAccs c t).rflick = s.rflick := rfl
@[simp] theorem State.setAccs_cpuHz (c t : Rat) : (s.setAccs c t).cpuHz = s.cpuHz := rfl
@[simp] theorem State.setAccs_romLen (c t : Rat) : (s.setAccs c t).romLen = s.romLen := rfl
@[simp] theorem State.setAccs_rom (c t : Rat) : (s.setAccs c t).rom = s.rom := rfl
@[simp] theorem State.setAccs_fault (c t : Rat) : (s.setAccs c t).fault = s.fault := rfl
@[simp] theorem State.setAccs_fetchWord (c t : Rat) : (s.setAccs c t).fetchWord = s.fetchWord := rfl
@[simp] theorem State.setAccs_fetchAddr (c t : Rat) : (s.setAccs c t).fetchAddr = s.fetchAddr := rfl
@[simp] theorem State.setAccs_drew (c t : Rat) : (s.setAccs c t).drew = s.drew := rfl
@[simp] theorem State.setAccs_beep (c t : Rat) : (s.setAccs c t).beep = s.beep := rfl
@[simp] theorem State.setAccs_draws (c t : Rat) : (s.setAccs c t).draws = s.draws := rfl
@[simp] theorem State.setAccs_steps (c t : Rat) : (s.setAccs c t).steps = s.steps := rfl
@[simp] theorem State.setAccs_reg (c t : Rat) (y : RegIdx) : (s.setAccs c t).reg y = s.reg y := rfl
@[simp] theorem State.setAccs_keyAt (c t : Rat) (j : RegIdx) : (s.setAccs c t).keyAt j = s.keyAt j := rfl
@[simp] theorem State.setAccs_cell (c t : Rat) (p q : Nat) : (s.setAccs c t).cell p q = s.cell p q := rfl
@[simp] theorem State.setAccs_on (c t : Rat) (p q : Nat) : (s.setAccs c t).on p q = s.on p q := rfl
@[simp] theorem State.setAccs_rand (c t : Rat) : (s.setAccs c t).rand = s.rand := rfl

@[simp] theorem State.setFault_v (r : Option FaultRecord) : (s.setFault r).v = s.v := rfl
@[simp] theorem State.setFault_i (r : Option FaultRecord) : (s.setFault r).i = s.i := rfl
@[simp] theorem State.setFault_pc (r : Option FaultRecord) : (s.setFault r).pc = s.pc := rfl
@[simp] theorem State.setFault_sp (r : Option FaultRecord) : (s.setFault r).sp = s.sp := rfl
@[simp] theorem State.setFault_stack (r : Option FaultRecord) : (s.setFault r).stack = s.stack := rfl
@[simp] theorem State.setFault_mem (r : Option FaultRecord) : (s.setFault r).mem = s.mem := rfl
@[simp] theorem State.setFault_disp (r : Option FaultRecord) : (s.setFault r).disp = s.disp := rfl
@[simp] theorem State.setFault_dt (r : Option FaultRecord) : (s.setFault r).dt = s.dt := rfl
@[simp] theorem State.setFault_st (r : Option FaultRecord) : (s.setFault r).st = s.st := rfl
@[simp] theorem State.setFault_key (r : Option FaultRecord) : (s.setFault r).key = s.key := rfl
@[simp] theorem State.setFault_run (r : Option FaultRecord) : (s.setFault r).run = s.run := rfl
@[simp] theorem State.setFault_cpuAcc (r : Option FaultRecord) : (s.setFault r).cpuAcc = s.cpuAcc := rfl
@[simp] theorem State.setFault_tickAcc (r : Option FaultRecord) : (s.setFault r).tickAcc = s.tickAcc := rfl
@[simp] theorem State.setFault_schip (r : Option FaultRecord) : (s.setFault r).schip = s.schip := rfl
@[simp] theorem State.setFault_trace (r : Option FaultRecord) : (s.setFault r).trace = s.trace := rfl
@[simp] theorem State.setFault_rflick (r : Option FaultRecord) : (s.setFault r).rflick = s.rflick := rfl
@[simp] theorem State.setFault_cpuHz (r : Option FaultRecord) : (s.setFault r).cpuHz = s.cpuHz := rfl
@[simp] theorem State.setFault_romLen (r : Option FaultRecord) : (s.setFault r).romLen = s.romLen := rfl
@[simp] theorem State.setFault_rom (r : Option FaultRecord) : (s.setFault r).rom = s.rom := rfl
@[simp] theorem State.setFault_fault (r : Option FaultRecord) : (s.setFault r).fault = r := rfl
@[simp] theorem State.setFault_fetchWord (r : Option FaultRecord) : (s.setFault r).fetchWord = s.fetchWord := rfl
@[simp] theorem State.setFault_fetchAddr (r : Option FaultRecord) : (s.setFault r).fetchAddr = s.fetchAddr := rfl
@[simp] theorem State.setFault_drew (r : Option FaultRecord) : (s.setFault r).drew = s.drew := rfl
@[simp] theorem State.setFault_beep (r : Option FaultRecord) : (s.setFault r).beep = s.beep := rfl
@[simp] theorem State.setFault_draws (r : Option FaultRecord) : (s.setFault r).draws = s.draws := rfl
@[simp] theorem State.setFault_steps (r : Option FaultRecord) : (s.setFault r).steps = s.steps := rfl
@[simp] theorem State.setFault_reg (r : Option FaultRecord) (y : RegIdx) : (s.setFault r).reg y = s.reg y := rfl
@[simp] theorem State.setFault_keyAt (r : Option FaultRecord) (j : RegIdx) : (s.setFault r).keyAt j = s.keyAt j := rfl
@[simp] theorem State.setFault_cell (r : Option FaultRecord) (p q : Nat) : (s.setFault r).cell p q = s.cell p q := rfl
@[simp] theorem State.setFault_on (r : Option FaultRecord) (p q : Nat) : (s.setFault r).on p q = s.on p q := rfl
@[simp] theorem State.setFault_rand (r : Option FaultRecord) : (s.setFault r).rand = s.rand := rfl

@[simp] theorem State.setFetched_v (w a : Word) : (s.setFetched w a).v = s.v := rfl
@[simp] theorem State.setFetched_i (w a : Word) : (s.setFetched w a).i = s.i := rfl
@[simp] theorem State.setFetched_pc (w a : Word) : (s.setFetched w a).pc = s.pc := rfl
@[simp] theorem State.setFetched_sp (w a : Word) : (s.setFetched w a).sp = s.sp := rfl
@[simp] theorem State.setFetched_stack (w a : Word) : (s.setFetched w a).stack = s.stack := rfl
@[simp] theorem State.setFetched_mem (w a : Word) : (s.setFetched w a).mem = s.mem := rfl
@[simp] theorem State.setFetched_disp (w a : Word) : (s.setFetched w a).disp = s.disp := rfl
@[simp] theorem State.setFetched_dt (w a : Word) : (s.setFetched w a).dt = s.dt := rfl
@[simp] theorem State.setFetched_st (w a : Word) : (s.setFetched w a).st = s.st := rfl
@[simp] theorem State.setFetched_key (w a : Word) : (s.setFetched w a).key = s.key := rfl
@[simp] theorem State.setFetched_run (w a : Word) : (s.setFetched w a).run = s.run := rfl
@[simp] theorem State.setFetched_cpuAcc (w a : Word) : (s.setFetched w a).cpuAcc = s.cpuAcc := rfl
@[simp] theorem State.setFetched_tickAcc (w a : Word) : (s.setFetched w a).tickAcc = s.tickAcc := rfl
@[simp] theorem State.setFetched_schip (w a : Word) : (s.setFetched w a).schip = s.schip := rfl
@[simp] theorem State.setFetched_trace (w a : Word) : (s.setFetched w a).trace = s.trace := rfl
@[simp] theorem State.setFetched_rflick (w a : Word) : (s.setFetched w a).rflick = s.rflick := rfl
@[simp] theorem State.setFetched_cpuHz (w a : Word) : (s.setFetched w a).cpuHz = s.cpuHz := rfl
@[simp] theorem State.setFetched_romLen (w a : Word) : (s.setFetched w a).romLen = s.romLen := rfl
@[simp] theorem State.setFetched_rom (w a : Word) : (s.setFetched w a).rom = s.rom := rfl
@[simp] theorem State.setFetched_fault (w a : Word) : (s.setFetched w a).fault = s.fault := rfl
@[simp] theorem State.setFetched_fetchWord (w a : Word) : (s.setFetched w a).fetchWord = w := rfl
@[simp] theorem State.setFetched_fetchAddr (w a : Word) : (s.setFetched w a).fetchAddr = a := rfl
@[simp] theorem State.setFetched_drew (w a : Word) : (s.setFetched w a).drew = s.drew := rfl
@[simp] theorem State.setFetched_beep (w a : Word) : (s.setFetched w a).beep = s.beep := rfl
@[simp] theorem State.setFetched_draws (w a : Word) : (s.setFetched w a).draws = s.draws := rfl
@[simp] theorem State.setFetched_steps (w a : Word) : (s.setFetched w a).steps = s.steps := rfl
@[simp] theorem State.setFetched_reg (w a : Word) (y : RegIdx) : (s.setFetched w a).reg y = s.reg y := rfl
@[simp] theorem State.setFetched_keyAt (w a : Word) (j : RegIdx) : (s.setFetched w a).keyAt j = s.keyAt j := rfl
@[simp] theorem State.setFetched_cell (w a : Word) (p q : Nat) : (s.setFetched w a).cell p q = s.cell p q := rfl
@[simp] theorem State.setFetched_on (w a : Word) (p q : Nat) : (s.setFetched w a).on p q = s.on p q := rfl
@[simp] theorem State.setFetched_rand (w a : Word) : (s.setFetched w a).rand = s.rand := rfl

@[simp] theorem State.setDrew_v (b : Bool) : (s.setDrew b).v = s.v := rfl
@[simp] theorem State.setDrew_i (b : Bool) : (s.setDrew b).i = s.i := rfl
@[simp] theorem State.setDrew_pc (b : Bool) : (s.setDrew b).pc = s.pc := rfl
@[simp] theorem State.setDrew_sp (b : Bool) : (s.setDrew b).sp = s.sp := rfl
@[simp] theorem State.setDrew_stack (b : Bool) : (s.setDrew b).stack = s.stack := rfl
@[simp] theorem State.setDrew_mem (b : Bool) : (s.setDrew b).mem = s.mem := rfl
@[simp] theorem State.setDrew_disp (b : Bool) : (s.setDrew b).disp = s.disp := rfl
@[simp] theorem State.setDrew_dt (b : Bool) : (s.setDrew b).dt = s.dt := rfl
@[simp] theorem State.setDrew_st (b : Bool) : (s.setDrew b).st = s.st := rfl
@[simp] theorem State.setDrew_key (b : Bool) : (s.setDrew b).key = s.key := rfl
@[simp] theorem State.setDrew_run (b : Bool) : (s.setDrew b).run = s.run := rfl
@[simp] theorem State.setDrew_cpuAcc (b : Bool) : (s.setDrew b).cpuAcc = s.cpuAcc := rfl
@[simp] theorem State.setDrew_tickAcc (b : Bool) : (s.setDrew b).tickAcc = s.tickAcc := rfl
@[simp] theorem State.setDrew_schip (b : Bool) : (s.setDrew b).schip = s.schip := rfl
@[simp] theorem State.setDrew_trace (b : Bool) : (s.setDrew b).trace = s.trace := rfl
@[simp] theorem State.setDrew_rflick (b : Bool) : (s.setDrew b).rflick = s.rflick := rfl
@[simp] theorem State.setDrew_cpuHz (b : Bool) : (s.setDrew b).cpuHz = s.cpuHz := rfl
@[simp] theorem State.setDrew_romLen (b : Bool) : (s.setDrew b).romLen = s.romLen := rfl
@[simp] theorem State.setDrew_rom (b : Bool) : (s.setDrew b).rom = s.rom := rfl
@[simp] theorem State.setDrew_fault (b : Bool) : (s.setDrew b).fault = s.fault := rfl
@[simp] theorem State.setDrew_fetchWord (b : Bool) : (s.setDrew b).fetchWord = s.fetchWord := rfl
@[simp] theorem State.setDrew_fetchAddr (b : Bool) : (s.setDrew b).fetchAddr = s.fetchAddr := rfl
@[simp] theorem State.setDrew_drew (b : Bool) : (s.setDrew b).drew = b := rfl
@[simp] theorem State.setDrew_beep (b : Bool) : (s.setDrew b).beep = s.beep := rfl
@[simp] theorem State.setDrew_draws (b : Bool) : (s.setDrew b).draws = s.draws := rfl
@[simp] theorem State.setDrew_steps (b : Bool) : (s.setDrew b).steps = s.steps := rfl
@[simp] theorem State.setDrew_reg (b : Bool) (y : RegIdx) : (s.setDrew b).reg y = s.reg y := rfl
@[simp] theorem State.setDrew_keyAt (b : Bool) (j : RegIdx) : (s.setDrew b).keyAt j = s.keyAt j := rfl
@[simp] theorem State.setDrew_cell (b : Bool) (p q : Nat) : (s.setDrew b).cell p q = s.cell p q := rfl
@[simp] theorem State.setDrew_on (b : Bool) (p q : Nat) : (s.setDrew b).on p q = s.on p q := rfl
@[simp] theorem State.setDrew_rand (b : Bool) : (s.setDrew b).rand = s.rand := rfl

@[simp] theorem State.setOutputs_v (d b : Bool) : (s.setOutputs d b).v = s.v := rfl
@[simp] theorem State.setOutputs_i (d b : Bool) : (s.setOutputs d b).i = s.i := rfl
@[simp] theorem State.setOutputs_pc (d b : Bool) : (s.setOutputs d b).pc = s.pc := rfl
@[simp] theorem State.setOutputs_sp (d b : Bool) : (s.setOutputs d b).sp = s.sp := rfl
@[simp] theorem State.setOutputs_stack (d b : Bool) : (s.setOutputs d b).stack = s.stack := rfl
@[simp] theorem State.setOutputs_mem (d b : Bool) : (s.setOutputs d b).mem = s.mem := rfl
@[simp] theorem State.setOutputs_disp (d b : Bool) : (s.setOutputs d b).disp = s.disp := rfl
@[simp] theorem State.setOutputs_dt (d b : Bool) : (s.setOutputs d b).dt = s.dt := rfl
@[simp] theorem State.setOutputs_st (d b : Bool) : (s.setOutputs d b).st = s.st := rfl
@[simp] theorem State.setOutputs_key (d b : Bool) : (s.setOutputs d b).key = s.key := rfl
@[simp] theorem State.setOutputs_run (d b : Bool) : (s.setOutputs d b).run = s.run := rfl
@[simp] theorem State.setOutputs_cpuAcc (d b : Bool) : (s.setOutputs d b).cpuAcc = s.cpuAcc := rfl
@[simp] theorem State.setOutputs_tickAcc (d b : Bool) : (s.setOutputs d b).tickAcc = s.tickAcc := rfl
@[simp] theorem State.setOutputs_schip (d b : Bool) : (s.setOutputs d b).schip = s.schip := rfl
@[simp] theorem State.setOutputs_trace (d b : Bool) : (s.setOutputs d b).trace = s.trace := rfl
@[simp] theorem State.setOutputs_rflick (d b : Bool) : (s.setOutputs d b).rflick = s.rflick := rfl
@[simp] theorem State.setOutputs_cpuHz (d b : Bool) : (s.setOutputs d b).cpuHz = s.cpuHz := rfl
@[simp] theorem State.setOutputs_romLen (d b : Bool) : (s.setOutputs d b).romLen = s.romLen := rfl
@[simp] theorem State.setOutputs_rom (d b : Bool) : (s.setOutputs d b).rom = s.rom := rfl
@[simp] theorem State.setOutputs_fault (d b : Bool) : (s.setOutputs d b).fault = s.fault := rfl
@[simp] theorem State.setOutputs_fetchWord (d b : Bool) : (s.setOutputs d b).fetchWord = s.fetchWord := rfl
@[simp] theorem State.setOutputs_fetchAddr (d b : Bool) : (s.setOutputs d b).fetchAddr = s.fetchAddr := rfl
@[simp] theorem State.setOutputs_drew (d b : Bool) : (s.setOutputs d b).drew = d := rfl
@[simp] theorem State.setOutputs_beep (d b : Bool) : (s.setOutputs d b).beep = b := rfl
@[simp] theorem State.setOutputs_draws (d b : Bool) : (s.setOutputs d b).draws = s.draws := rfl
@[simp] theorem State.setOutputs_steps (d b : Bool) : (s.setOutputs d b).steps = s.steps := rfl
@[simp] theorem State.setOutputs_reg (d b : Bool) (y : RegIdx) : (s.setOutputs d b).reg y = s.reg y := rfl
@[simp] theorem State.setOutputs_keyAt (d b : Bool) (j : RegIdx) : (s.setOutputs d b).keyAt j = s.keyAt j := rfl
@[simp] theorem State.setOutputs_cell (d b : Bool) (p q : Nat) : (s.setOutputs d b).cell p q = s.cell p q := rfl
@[simp] theorem State.setOutputs_on (d b : Bool) (p q : Nat) : (s.setOutputs d b).on p q = s.on p q := rfl
@[simp] theorem State.setOutputs_rand (d b : Bool) : (s.setOutputs d b).rand = s.rand := rfl

@[simp] theorem State.countDraw_v : (s.countDraw).v = s.v := rfl
@[simp] theorem State.countDraw_i : (s.countDraw).i = s.i := rfl
@[simp] theorem State.countDraw_pc : (s.countDraw).pc = s.pc := rfl
@[simp] theorem State.countDraw_sp : (s.countDraw).sp = s.sp := rfl
@[simp] theorem State.countDraw_stack : (s.countDraw).stack = s.stack := rfl
@[simp] theorem State.countDraw_mem : (s.countDraw).mem = s.mem := rfl
@[simp] theorem State.countDraw_disp : (s.countDraw).disp = s.disp := rfl
@[simp] theorem State.countDraw_dt : (s.countDraw).dt = s.dt := rfl
@[simp] theorem State.countDraw_st : (s.countDraw).st = s.st := rfl
@[simp] theorem State.countDraw_key : (s.countDraw).key = s.key := rfl
@[simp] theorem State.countDraw_run : (s.countDraw).run = s.run := rfl
@[simp] theorem State.countDraw_cpuAcc : (s.countDraw).cpuAcc = s.cpuAcc := rfl
@[simp] theorem State.countDraw_tickAcc : (s.countDraw).tickAcc = s.tickAcc := rfl
@[simp] theorem State.countDraw_schip : (s.countDraw).schip = s.schip := rfl
@[simp] theorem State.countDraw_trace : (s.countDraw).trace = s.trace := rfl
@[simp] theorem State.countDraw_rflick : (s.countDraw).rflick = s.rflick := rfl
@[simp] theorem State.countDraw_cpuHz : (s.countDraw).cpuHz = s.cpuHz := rfl
@[simp] theorem State.countDraw_romLen : (s.countDraw).romLen = s.romLen := rfl
@[simp] theorem State.countDraw_rom : (s.countDraw).rom = s.rom := rfl
@[simp] theorem State.countDraw_fault : (s.countDraw).fault = s.fault := rfl
@[simp] theorem State.countDraw_fetchWord : (s.countDraw).fetchWord = s.fetchWord := rfl
@[simp] theorem State.countDraw_fetchAddr : (s.countDraw).fetchAddr = s.fetchAddr := rfl
@[simp] theorem State.countDraw_drew : (s.countDraw).drew = s.drew := rfl
@[simp] theorem State.countDraw_beep : (s.countDraw).beep = s.beep := rfl
@[simp] theorem State.countDraw_draws : (s.countDraw).draws = s.draws + 1 := rfl
@[simp] theorem State.countDraw_steps : (s.countDraw).steps = s.steps := rfl
@[simp] theorem State.countDraw_reg (y : RegIdx) : (s.countDraw).reg y = s.reg y := rfl
@[simp] theorem State.countDraw_keyAt (j : RegIdx) : (s.countDraw).keyAt j = s.keyAt j := rfl
@[simp] theorem State.countDraw_cell (p q : Nat) : (s.countDraw).cell p q = s.cell p q := rfl
@[simp] theorem State.countDraw_on (p q : Nat) : (s.countDraw).on p q = s.on p q := rfl

@[simp] theorem State.countStep_v : (s.countStep).v = s.v := rfl
@[simp] theorem State.countStep_i : (s.countStep).i = s.i := rfl
@[simp] theorem State.countStep_pc : (s.countStep).pc = s.pc := rfl
@[simp] theorem State.countStep_sp : (s.countStep).sp = s.sp := rfl
@[simp] theorem State.countStep_stack : (s.countStep).stack = s.stack := rfl
@[simp] theorem State.countStep_mem : (s.countStep).mem = s.mem := rfl
@[simp] theorem State.countStep_disp : (s.countStep).disp = s.disp := rfl
@[simp] theorem State.countStep_dt : (s.countStep).dt = s.dt := rfl
@[simp] theorem State.countStep_st : (s.countStep).st = s.st := rfl
@[simp] theorem State.countStep_key : (s.countStep).key = s.key := rfl
@[simp] theorem State.countStep_run : (s.countStep).run = s.run := rfl
@[simp] theorem State.countStep_cpuAcc : (s.countStep).cpuAcc = s.cpuAcc := rfl
@[simp] theorem State.countStep_tickAcc : (s.countStep).tickAcc = s.tickAcc := rfl
@[simp] theorem State.countStep_schip : (s.countStep).schip = s.schip := rfl
@[simp] theorem State.countStep_trace : (s.countStep).trace = s.trace := rfl
@[simp] theorem State.countStep_rflick : (s.countStep).rflick = s.rflick := rfl
@[simp] theorem State.countStep_cpuHz : (s.countStep).cpuHz = s.cpuHz := rfl
@[simp] theorem State.countStep_romLen : (s.countStep).romLen = s.romLen := rfl
@[simp] theorem State.countStep_rom : (s.countStep).rom = s.rom := rfl
@[simp] theorem State.countStep_fault : (s.countStep).fault = s.fault := rfl
@[simp] theorem State.countStep_fetchWord : (s.countStep).fetchWord = s.fetchWord := rfl
@[simp] theorem State.countStep_fetchAddr : (s.countStep).fetchAddr = s.fetchAddr := rfl
@[simp] theorem State.countStep_drew : (s.countStep).drew = s.drew := rfl
@[simp] theorem State.countStep_beep : (s.countStep).beep = s.beep := rfl
@[simp] theorem State.countStep_draws : (s.countStep).draws = s.draws := rfl
@[simp] theorem State.countStep_steps : (s.countStep).steps = s.steps + 1 := rfl
@[simp] theorem State.countStep_reg (y : RegIdx) : (s.countStep).reg y = s.reg y := rfl
@[simp] theorem State.countStep_keyAt (j : RegIdx) : (s.countStep).keyAt j = s.keyAt j := rfl
@[simp] theorem State.countStep_cell (p q : Nat) : (s.countStep).cell p q = s.cell p q := rfl
@[simp] theorem State.countStep_on (p q : Nat) : (s.countStep).on p q = s.on p q := rfl
@[simp] theorem State.countStep_rand : (s.countStep).rand = s.rand := rfl

end Sys2Proof.Machine
end

