-- ==== Sys2Proof/Laws/Updates.lean ====
section
/-! SUPPORT. What each composite update leaves unchanged: one lemma per untouched field. -/

namespace Sys2Proof.Machine

variable (s : State)

@[simp] theorem State.setKey_v (k : RegIdx) (q : KeyState) : (s.setKey k q).v = s.v := rfl
@[simp] theorem State.setKey_i (k : RegIdx) (q : KeyState) : (s.setKey k q).i = s.i := rfl
@[simp] theorem State.setKey_pc (k : RegIdx) (q : KeyState) : (s.setKey k q).pc = s.pc := rfl
@[simp] theorem State.setKey_sp (k : RegIdx) (q : KeyState) : (s.setKey k q).sp = s.sp := rfl
@[simp] theorem State.setKey_stack (k : RegIdx) (q : KeyState) : (s.setKey k q).stack = s.stack := rfl
@[simp] theorem State.setKey_mem (k : RegIdx) (q : KeyState) : (s.setKey k q).mem = s.mem := rfl
@[simp] theorem State.setKey_disp (k : RegIdx) (q : KeyState) : (s.setKey k q).disp = s.disp := rfl
@[simp] theorem State.setKey_dt (k : RegIdx) (q : KeyState) : (s.setKey k q).dt = s.dt := rfl
@[simp] theorem State.setKey_st (k : RegIdx) (q : KeyState) : (s.setKey k q).st = s.st := rfl
@[simp] theorem State.setKey_run (k : RegIdx) (q : KeyState) : (s.setKey k q).run = s.run := rfl
@[simp] theorem State.setKey_cpuAcc (k : RegIdx) (q : KeyState) : (s.setKey k q).cpuAcc = s.cpuAcc := rfl
@[simp] theorem State.setKey_tickAcc (k : RegIdx) (q : KeyState) : (s.setKey k q).tickAcc = s.tickAcc := rfl
@[simp] theorem State.setKey_schip (k : RegIdx) (q : KeyState) : (s.setKey k q).schip = s.schip := rfl
@[simp] theorem State.setKey_trace (k : RegIdx) (q : KeyState) : (s.setKey k q).trace = s.trace := rfl
@[simp] theorem State.setKey_rflick (k : RegIdx) (q : KeyState) : (s.setKey k q).rflick = s.rflick := rfl
@[simp] theorem State.setKey_cpuHz (k : RegIdx) (q : KeyState) : (s.setKey k q).cpuHz = s.cpuHz := rfl
@[simp] theorem State.setKey_romLen (k : RegIdx) (q : KeyState) : (s.setKey k q).romLen = s.romLen := rfl
@[simp] theorem State.setKey_rom (k : RegIdx) (q : KeyState) : (s.setKey k q).rom = s.rom := rfl
@[simp] theorem State.setKey_fault (k : RegIdx) (q : KeyState) : (s.setKey k q).fault = s.fault := rfl
@[simp] theorem State.setKey_fetchWord (k : RegIdx) (q : KeyState) : (s.setKey k q).fetchWord = s.fetchWord := rfl
@[simp] theorem State.setKey_fetchAddr (k : RegIdx) (q : KeyState) : (s.setKey k q).fetchAddr = s.fetchAddr := rfl
@[simp] theorem State.setKey_drew (k : RegIdx) (q : KeyState) : (s.setKey k q).drew = s.drew := rfl
@[simp] theorem State.setKey_beep (k : RegIdx) (q : KeyState) : (s.setKey k q).beep = s.beep := rfl
@[simp] theorem State.setKey_draws (k : RegIdx) (q : KeyState) : (s.setKey k q).draws = s.draws := rfl
@[simp] theorem State.setKey_steps (k : RegIdx) (q : KeyState) : (s.setKey k q).steps = s.steps := rfl
@[simp] theorem State.setKey_reg (k : RegIdx) (q : KeyState) (y : RegIdx) : (s.setKey k q).reg y = s.reg y := rfl
@[simp] theorem State.setKey_cell (k : RegIdx) (q : KeyState) (a b : Nat) : (s.setKey k q).cell a b = s.cell a b := rfl
@[simp] theorem State.setKey_on (k : RegIdx) (q : KeyState) (a b : Nat) : (s.setKey k q).on a b = s.on a b := rfl

@[simp] theorem raise_v (c : FaultCause) : (raise c s).v = s.v := rfl
@[simp] theorem raise_i (c : FaultCause) : (raise c s).i = s.i := rfl
@[simp] theorem raise_pc (c : FaultCause) : (raise c s).pc = s.pc := rfl
@[simp] theorem raise_sp (c : FaultCause) : (raise c s).sp = s.sp := rfl
@[simp] theorem raise_stack (c : FaultCause) : (raise c s).stack = s.stack := rfl
@[simp] theorem raise_mem (c : FaultCause) : (raise c s).mem = s.mem := rfl
@[simp] theorem raise_disp (c : FaultCause) : (raise c s).disp = s.disp := rfl
@[simp] theorem raise_dt (c : FaultCause) : (raise c s).dt = s.dt := rfl
@[simp] theorem raise_st (c : FaultCause) : (raise c s).st = s.st := rfl
@[simp] theorem raise_key (c : FaultCause) : (raise c s).key = s.key := rfl
@[simp] theorem raise_run (c : FaultCause) : (raise c s).run = s.run := rfl
@[simp] theorem raise_cpuAcc (c : FaultCause) : (raise c s).cpuAcc = s.cpuAcc := rfl
@[simp] theorem raise_tickAcc (c : FaultCause) : (raise c s).tickAcc = s.tickAcc := rfl
@[simp] theorem raise_schip (c : FaultCause) : (raise c s).schip = s.schip := rfl
@[simp] theorem raise_trace (c : FaultCause) : (raise c s).trace = s.trace := rfl
@[simp] theorem raise_rflick (c : FaultCause) : (raise c s).rflick = s.rflick := rfl
@[simp] theorem raise_cpuHz (c : FaultCause) : (raise c s).cpuHz = s.cpuHz := rfl
@[simp] theorem raise_romLen (c : FaultCause) : (raise c s).romLen = s.romLen := rfl
@[simp] theorem raise_rom (c : FaultCause) : (raise c s).rom = s.rom := rfl
@[simp] theorem raise_fetchWord (c : FaultCause) : (raise c s).fetchWord = s.fetchWord := rfl
@[simp] theorem raise_fetchAddr (c : FaultCause) : (raise c s).fetchAddr = s.fetchAddr := rfl
@[simp] theorem raise_drew (c : FaultCause) : (raise c s).drew = s.drew := rfl
@[simp] theorem raise_beep (c : FaultCause) : (raise c s).beep = s.beep := rfl
@[simp] theorem raise_draws (c : FaultCause) : (raise c s).draws = s.draws := rfl
@[simp] theorem raise_steps (c : FaultCause) : (raise c s).steps = s.steps := rfl
@[simp] theorem raise_reg (c : FaultCause) (y : RegIdx) : (raise c s).reg y = s.reg y := rfl
@[simp] theorem raise_keyAt (c : FaultCause) (j : RegIdx) : (raise c s).keyAt j = s.keyAt j := rfl
@[simp] theorem raise_cell (c : FaultCause) (p q : Nat) : (raise c s).cell p q = s.cell p q := rfl
@[simp] theorem raise_on (c : FaultCause) (p q : Nat) : (raise c s).on p q = s.on p q := rfl

@[simp] theorem State.setFlag_i (b : Bool) : (s.setFlag b).i = s.i := rfl
@[simp] theorem State.setFlag_pc (b : Bool) : (s.setFlag b).pc = s.pc := rfl
@[simp] theorem State.setFlag_sp (b : Bool) : (s.setFlag b).sp = s.sp := rfl
@[simp] theorem State.setFlag_stack (b : Bool) : (s.setFlag b).stack = s.stack := rfl
@[simp] theorem State.setFlag_mem (b : Bool) : (s.setFlag b).mem = s.mem := rfl
@[simp] theorem State.setFlag_disp (b : Bool) : (s.setFlag b).disp = s.disp := rfl
@[simp] theorem State.setFlag_dt (b : Bool) : (s.setFlag b).dt = s.dt := rfl
@[simp] theorem State.setFlag_st (b : Bool) : (s.setFlag b).st = s.st := rfl
@[simp] theorem State.setFlag_key (b : Bool) : (s.setFlag b).key = s.key := rfl
@[simp] theorem State.setFlag_run (b : Bool) : (s.setFlag b).run = s.run := rfl
@[simp] theorem State.setFlag_cpuAcc (b : Bool) : (s.setFlag b).cpuAcc = s.cpuAcc := rfl
@[simp] theorem State.setFlag_tickAcc (b : Bool) : (s.setFlag b).tickAcc = s.tickAcc := rfl
@[simp] theorem State.setFlag_schip (b : Bool) : (s.setFlag b).schip = s.schip := rfl
@[simp] theorem State.setFlag_trace (b : Bool) : (s.setFlag b).trace = s.trace := rfl
@[simp] theorem State.setFlag_rflick (b : Bool) : (s.setFlag b).rflick = s.rflick := rfl
@[simp] theorem State.setFlag_cpuHz (b : Bool) : (s.setFlag b).cpuHz = s.cpuHz := rfl
@[simp] theorem State.setFlag_romLen (b : Bool) : (s.setFlag b).romLen = s.romLen := rfl
@[simp] theorem State.setFlag_rom (b : Bool) : (s.setFlag b).rom = s.rom := rfl
@[simp] theorem State.setFlag_fault (b : Bool) : (s.setFlag b).fault = s.fault := rfl
@[simp] theorem State.setFlag_fetchWord (b : Bool) : (s.setFlag b).fetchWord = s.fetchWord := rfl
@[simp] theorem State.setFlag_fetchAddr (b : Bool) : (s.setFlag b).fetchAddr = s.fetchAddr := rfl
@[simp] theorem State.setFlag_drew (b : Bool) : (s.setFlag b).drew = s.drew := rfl
@[simp] theorem State.setFlag_beep (b : Bool) : (s.setFlag b).beep = s.beep := rfl
@[simp] theorem State.setFlag_draws (b : Bool) : (s.setFlag b).draws = s.draws := rfl
@[simp] theorem State.setFlag_steps (b : Bool) : (s.setFlag b).steps = s.steps := rfl
@[simp] theorem State.setFlag_keyAt (b : Bool) (j : RegIdx) : (s.setFlag b).keyAt j = s.keyAt j := rfl
@[simp] theorem State.setFlag_cell (b : Bool) (p q : Nat) : (s.setFlag b).cell p q = s.cell p q := rfl
@[simp] theorem State.setFlag_on (b : Bool) (p q : Nat) : (s.setFlag b).on p q = s.on p q := rfl

@[simp] theorem skipIf_v (c : Bool) : (skipIf c s).v = s.v := by cases c <;> rfl
@[simp] theorem skipIf_i (c : Bool) : (skipIf c s).i = s.i := by cases c <;> rfl
@[simp] theorem skipIf_sp (c : Bool) : (skipIf c s).sp = s.sp := by cases c <;> rfl
@[simp] theorem skipIf_stack (c : Bool) : (skipIf c s).stack = s.stack := by cases c <;> rfl
@[simp] theorem skipIf_mem (c : Bool) : (skipIf c s).mem = s.mem := by cases c <;> rfl
@[simp] theorem skipIf_disp (c : Bool) : (skipIf c s).disp = s.disp := by cases c <;> rfl
@[simp] theorem skipIf_dt (c : Bool) : (skipIf c s).dt = s.dt := by cases c <;> rfl
@[simp] theorem skipIf_st (c : Bool) : (skipIf c s).st = s.st := by cases c <;> rfl
@[simp] theorem skipIf_key (c : Bool) : (skipIf c s).key = s.key := by cases c <;> rfl
@[simp] theorem skipIf_run (c : Bool) : (skipIf c s).run = s.run := by cases c <;> rfl
@[simp] theorem skipIf_cpuAcc (c : Bool) : (skipIf c s).cpuAcc = s.cpuAcc := by cases c <;> rfl
@[simp] theorem skipIf_tickAcc (c : Bool) : (skipIf c s).tickAcc = s.tickAcc := by cases c <;> rfl
@[simp] theorem skipIf_schip (c : Bool) : (skipIf c s).schip = s.schip := by cases c <;> rfl
@[simp] theorem skipIf_trace (c : Bool) : (skipIf c s).trace = s.trace := by cases c <;> rfl
@[simp] theorem skipIf_rflick (c : Bool) : (skipIf c s).rflick = s.rflick := by cases c <;> rfl
@[simp] theorem skipIf_cpuHz (c : Bool) : (skipIf c s).cpuHz = s.cpuHz := by cases c <;> rfl
@[simp] theorem skipIf_romLen (c : Bool) : (skipIf c s).romLen = s.romLen := by cases c <;> rfl
@[simp] theorem skipIf_rom (c : Bool) : (skipIf c s).rom = s.rom := by cases c <;> rfl
@[simp] theorem skipIf_fault (c : Bool) : (skipIf c s).fault = s.fault := by cases c <;> rfl
@[simp] theorem skipIf_fetchWord (c : Bool) : (skipIf c s).fetchWord = s.fetchWord := by cases c <;> rfl
@[simp] theorem skipIf_fetchAddr (c : Bool) : (skipIf c s).fetchAddr = s.fetchAddr := by cases c <;> rfl
@[simp] theorem skipIf_drew (c : Bool) : (skipIf c s).drew = s.drew := by cases c <;> rfl
@[simp] theorem skipIf_beep (c : Bool) : (skipIf c s).beep = s.beep := by cases c <;> rfl
@[simp] theorem skipIf_draws (c : Bool) : (skipIf c s).draws = s.draws := by cases c <;> rfl
@[simp] theorem skipIf_steps (c : Bool) : (skipIf c s).steps = s.steps := by cases c <;> rfl
@[simp] theorem skipIf_reg (c : Bool) (y : RegIdx) : (skipIf c s).reg y = s.reg y := by cases c <;> rfl
@[simp] theorem skipIf_keyAt (c : Bool) (j : RegIdx) : (skipIf c s).keyAt j = s.keyAt j := by cases c <;> rfl
@[simp] theorem skipIf_cell (c : Bool) (p q : Nat) : (skipIf c s).cell p q = s.cell p q := by cases c <;> rfl
@[simp] theorem skipIf_on (c : Bool) (p q : Nat) : (skipIf c s).on p q = s.on p q := by cases c <;> rfl

@[simp] theorem blockAdvance_v : (blockAdvance s).v = s.v := by unfold blockAdvance; split <;> rfl
@[simp] theorem blockAdvance_pc : (blockAdvance s).pc = s.pc := by unfold blockAdvance; split <;> rfl
@[simp] theorem blockAdvance_sp : (blockAdvance s).sp = s.sp := by unfold blockAdvance; split <;> rfl
@[simp] theorem blockAdvance_stack : (blockAdvance s).stack = s.stack := by unfold blockAdvance; split <;> rfl
@[simp] theorem blockAdvance_mem : (blockAdvance s).mem = s.mem := by unfold blockAdvance; split <;> rfl
@[simp] theorem blockAdvance_disp : (blockAdvance s).disp = s.disp := by unfold blockAdvance; split <;> rfl
@[simp] theorem blockAdvance_dt : (blockAdvance s).dt = s.dt := by unfold blockAdvance; split <;> rfl
@[simp] theorem blockAdvance_st : (blockAdvance s).st = s.st := by unfold blockAdvance; split <;> rfl
@[simp] theorem blockAdvance_key : (blockAdvance s).key = s.key := by unfold blockAdvance; split <;> rfl
@[simp] theorem blockAdvance_run : (blockAdvance s).run = s.run := by unfold blockAdvance; split <;> rfl
@[simp] theorem blockAdvance_cpuAcc : (blockAdvance s).cpuAcc = s.cpuAcc := by unfold blockAdvance; split <;> rfl
@[simp] theorem blockAdvance_tickAcc : (blockAdvance s).tickAcc = s.tickAcc := by unfold blockAdvance; split <;> rfl
@[simp] theorem blockAdvance_schip : (blockAdvance s).schip = s.schip := by unfold blockAdvance; split <;> rfl
@[simp] theorem blockAdvance_trace : (blockAdvance s).trace = s.trace := by unfold blockAdvance; split <;> rfl
@[simp] theorem blockAdvance_rflick : (blockAdvance s).rflick = s.rflick := by unfold blockAdvance; split <;> rfl
@[simp] theorem blockAdvance_cpuHz : (blockAdvance s).cpuHz = s.cpuHz := by unfold blockAdvance; split <;> rfl
@[simp] theorem blockAdvance_romLen : (blockAdvance s).romLen = s.romLen := by unfold blockAdvance; split <;> rfl
@[simp] theorem blockAdvance_rom : (blockAdvance s).rom = s.rom := by unfold blockAdvance; split <;> rfl
@[simp] theorem blockAdvance_fault : (blockAdvance s).fault = s.fault := by unfold blockAdvance; split <;> rfl
@[simp] theorem blockAdvance_fetchWord : (blockAdvance s).fetchWord = s.fetchWord := by unfold blockAdvance; split <;> rfl
@[simp] theorem blockAdvance_fetchAddr : (blockAdvance s).fetchAddr = s.fetchAddr := by unfold blockAdvance; split <;> rfl
@[simp] theorem blockAdvance_drew : (blockAdvance s).drew = s.drew := by unfold blockAdvance; split <;> rfl
@[simp] theorem blockAdvance_beep : (blockAdvance s).beep = s.beep := by unfold blockAdvance; split <;> rfl
@[simp] theorem blockAdvance_draws : (blockAdvance s).draws = s.draws := by unfold blockAdvance; split <;> rfl
@[simp] theorem blockAdvance_steps : (blockAdvance s).steps = s.steps := by unfold blockAdvance; split <;> rfl
@[simp] theorem blockAdvance_reg  (y : RegIdx) : (blockAdvance s).reg y = s.reg y := by unfold blockAdvance; split <;> rfl
@[simp] theorem blockAdvance_keyAt  (j : RegIdx) : (blockAdvance s).keyAt j = s.keyAt j := by unfold blockAdvance; split <;> rfl
@[simp] theorem blockAdvance_cell  (p q : Nat) : (blockAdvance s).cell p q = s.cell p q := by unfold blockAdvance; split <;> rfl
@[simp] theorem blockAdvance_on  (p q : Nat) : (blockAdvance s).on p q = s.on p q := by unfold blockAdvance; split <;> rfl

@[simp] theorem writeResultFlag_i (x : RegIdx) (r : Byte) (f : Bool) : (writeResultFlag x r f s).i = s.i := rfl
@[simp] theorem writeResultFlag_pc (x : RegIdx) (r : Byte) (f : Bool) : (writeResultFlag x r f s).pc = s.pc := rfl
@[simp] theorem writeResultFlag_sp (x : RegIdx) (r : Byte) (f : Bool) : (writeResultFlag x r f s).sp = s.sp := rfl
@[simp] theorem writeResultFlag_stack (x : RegIdx) (r : Byte) (f : Bool) : (writeResultFlag x r f s).stack = s.stack := rfl
@[simp] theorem writeResultFlag_mem (x : RegIdx) (r : Byte) (f : Bool) : (writeResultFlag x r f s).mem = s.mem := rfl
@[simp] theorem writeResultFlag_disp (x : RegIdx) (r : Byte) (f : Bool) : (writeResultFlag x r f s).disp = s.disp := rfl
@[simp] theorem writeResultFlag_dt (x : RegIdx) (r : Byte) (f : Bool) : (writeResultFlag x r f s).dt = s.dt := rfl
@[simp] theorem writeResultFlag_st (x : RegIdx) (r : Byte) (f : Bool) : (writeResultFlag x r f s).st = s.st := rfl
@[simp] theorem writeResultFlag_key (x : RegIdx) (r : Byte) (f : Bool) : (writeResultFlag x r f s).key = s.key := rfl
@[simp] theorem writeResultFlag_run (x : RegIdx) (r : Byte) (f : Bool) : (writeResultFlag x r f s).run = s.run := rfl
@[simp] theorem writeResultFlag_cpuAcc (x : RegIdx) (r : Byte) (f : Bool) : (writeResultFlag x r f s).cpuAcc = s.cpuAcc := rfl
@[simp] theorem writeResultFlag_tickAcc (x : RegIdx) (r : Byte) (f : Bool) : (writeResultFlag x r f s).tickAcc = s.tickAcc := rfl
@[simp] theorem writeResultFlag_schip (x : RegIdx) (r : Byte) (f : Bool) : (writeResultFlag x r f s).schip = s.schip := rfl
@[simp] theorem writeResultFlag_trace (x : RegIdx) (r : Byte) (f : Bool) : (writeResultFlag x r f s).trace = s.trace := rfl
@[simp] theorem writeResultFlag_rflick (x : RegIdx) (r : Byte) (f : Bool) : (writeResultFlag x r f s).rflick = s.rflick := rfl
@[simp] theorem writeResultFlag_cpuHz (x : RegIdx) (r : Byte) (f : Bool) : (writeResultFlag x r f s).cpuHz = s.cpuHz := rfl
@[simp] theorem writeResultFlag_romLen (x : RegIdx) (r : Byte) (f : Bool) : (writeResultFlag x r f s).romLen = s.romLen := rfl
@[simp] theorem writeResultFlag_rom (x : RegIdx) (r : Byte) (f : Bool) : (writeResultFlag x r f s).rom = s.rom := rfl
@[simp] theorem writeResultFlag_fault (x : RegIdx) (r : Byte) (f : Bool) : (writeResultFlag x r f s).fault = s.fault := rfl
@[simp] theorem writeResultFlag_fetchWord (x : RegIdx) (r : Byte) (f : Bool) : (writeResultFlag x r f s).fetchWord = s.fetchWord := rfl
@[simp] theorem writeResultFlag_fetchAddr (x : RegIdx) (r : Byte) (f : Bool) : (writeResultFlag x r f s).fetchAddr = s.fetchAddr := rfl
@[simp] theorem writeResultFlag_drew (x : RegIdx) (r : Byte) (f : Bool) : (writeResultFlag x r f s).drew = s.drew := rfl
@[simp] theorem writeResultFlag_beep (x : RegIdx) (r : Byte) (f : Bool) : (writeResultFlag x r f s).beep = s.beep := rfl
@[simp] theorem writeResultFlag_draws (x : RegIdx) (r : Byte) (f : Bool) : (writeResultFlag x r f s).draws = s.draws := rfl
@[simp] theorem writeResultFlag_steps (x : RegIdx) (r : Byte) (f : Bool) : (writeResultFlag x r f s).steps = s.steps := rfl
@[simp] theorem writeResultFlag_keyAt (x : RegIdx) (r : Byte) (f : Bool) (j : RegIdx) : (writeResultFlag x r f s).keyAt j = s.keyAt j := rfl
@[simp] theorem writeResultFlag_cell (x : RegIdx) (r : Byte) (f : Bool) (p q : Nat) : (writeResultFlag x r f s).cell p q = s.cell p q := rfl
@[simp] theorem writeResultFlag_on (x : RegIdx) (r : Byte) (f : Bool) (p q : Nat) : (writeResultFlag x r f s).on p q = s.on p q := rfl

@[simp] theorem writeLogic_i (x : RegIdx) (r : Byte) : (writeLogic x r s).i = s.i := by unfold writeLogic; split <;> rfl
@[simp] theorem writeLogic_pc (x : RegIdx) (r : Byte) : (writeLogic x r s).pc = s.pc := by unfold writeLogic; split <;> rfl
@[simp] theorem writeLogic_sp (x : RegIdx) (r : Byte) : (writeLogic x r s).sp = s.sp := by unfold writeLogic; split <;> rfl
@[simp] theorem writeLogic_stack (x : RegIdx) (r : Byte) : (writeLogic x r s).stack = s.stack := by unfold writeLogic; split <;> rfl
@[simp] theorem writeLogic_mem (x : RegIdx) (r : Byte) : (writeLogic x r s).mem = s.mem := by unfold writeLogic; split <;> rfl
@[simp] theorem writeLogic_disp (x : RegIdx) (r : Byte) : (writeLogic x r s).disp = s.disp := by unfold writeLogic; split <;> rfl
@[simp] theorem writeLogic_dt (x : RegIdx) (r : Byte) : (writeLogic x r s).dt = s.dt := by unfold writeLogic; split <;> rfl
@[simp] theorem writeLogic_st (x : RegIdx) (r : Byte) : (writeLogic x r s).st = s.st := by unfold writeLogic; split <;> rfl
@[simp] theorem writeLogic_key (x : RegIdx) (r : Byte) : (writeLogic x r s).key = s.key := by unfold writeLogic; split <;> rfl
@[simp] theorem writeLogic_run (x : RegIdx) (r : Byte) : (writeLogic x r s).run = s.run := by unfold writeLogic; split <;> rfl
@[simp] theorem writeLogic_cpuAcc (x : RegIdx) (r : Byte) : (writeLogic x r s).cpuAcc = s.cpuAcc := by unfold writeLogic; split <;> rfl
@[simp] theorem writeLogic_tickAcc (x : RegIdx) (r : Byte) : (writeLogic x r s).tickAcc = s.tickAcc := by unfold writeLogic; split <;> rfl
@[simp] theorem writeLogic_schip (x : RegIdx) (r : Byte) : (writeLogic x r s).schip = s.schip := by unfold writeLogic; split <;> rfl
@[simp] theorem writeLogic_trace (x : RegIdx) (r : Byte) : (writeLogic x r s).trace = s.trace := by unfold writeLogic; split <;> rfl
@[simp] theorem writeLogic_rflick (x : RegIdx) (r : Byte) : (writeLogic x r s).rflick = s.rflick := by unfold writeLogic; split <;> rfl
@[simp] theorem writeLogic_cpuHz (x : RegIdx) (r : Byte) : (writeLogic x r s).cpuHz = s.cpuHz := by unfold writeLogic; split <;> rfl
@[simp] theorem writeLogic_romLen (x : RegIdx) (r : Byte) : (writeLogic x r s).romLen = s.romLen := by unfold writeLogic; split <;> rfl
@[simp] theorem writeLogic_rom (x : RegIdx) (r : Byte) : (writeLogic x r s).rom = s.rom := by unfold writeLogic; split <;> rfl
@[simp] theorem writeLogic_fault (x : RegIdx) (r : Byte) : (writeLogic x r s).fault = s.fault := by unfold writeLogic; split <;> rfl
@[simp] theorem writeLogic_fetchWord (x : RegIdx) (r : Byte) : (writeLogic x r s).fetchWord = s.fetchWord := by unfold writeLogic; split <;> rfl
@[simp] theorem writeLogic_fetchAddr (x : RegIdx) (r : Byte) : (writeLogic x r s).fetchAddr = s.fetchAddr := by unfold writeLogic; split <;> rfl
@[simp] theorem writeLogic_drew (x : RegIdx) (r : Byte) : (writeLogic x r s).drew = s.drew := by unfold writeLogic; split <;> rfl
@[simp] theorem writeLogic_beep (x : RegIdx) (r : Byte) : (writeLogic x r s).beep = s.beep := by unfold writeLogic; split <;> rfl
@[simp] theorem writeLogic_draws (x : RegIdx) (r : Byte) : (writeLogic x r s).draws = s.draws := by unfold writeLogic; split <;> rfl
@[simp] theorem writeLogic_steps (x : RegIdx) (r : Byte) : (writeLogic x r s).steps = s.steps := by unfold writeLogic; split <;> rfl
@[simp] theorem writeLogic_keyAt (x : RegIdx) (r : Byte) (j : RegIdx) : (writeLogic x r s).keyAt j = s.keyAt j := by unfold writeLogic; split <;> rfl
@[simp] theorem writeLogic_cell (x : RegIdx) (r : Byte) (p q : Nat) : (writeLogic x r s).cell p q = s.cell p q := by unfold writeLogic; split <;> rfl
@[simp] theorem writeLogic_on (x : RegIdx) (r : Byte) (p q : Nat) : (writeLogic x r s).on p q = s.on p q := by unfold writeLogic; split <;> rfl

@[simp] theorem writeIndexFlag_i (n : Nat) : (writeIndexFlag n s).i = s.i := rfl
@[simp] theorem writeIndexFlag_pc (n : Nat) : (writeIndexFlag n s).pc = s.pc := rfl
@[simp] theorem writeIndexFlag_sp (n : Nat) : (writeIndexFlag n s).sp = s.sp := rfl
@[simp] theorem writeIndexFlag_stack (n : Nat) : (writeIndexFlag n s).stack = s.stack := rfl
@[simp] theorem writeIndexFlag_mem (n : Nat) : (writeIndexFlag n s).mem = s.mem := rfl
@[simp] theorem writeIndexFlag_disp (n : Nat) : (writeIndexFlag n s).disp = s.disp := rfl
@[simp] theorem writeIndexFlag_dt (n : Nat) : (writeIndexFlag n s).dt = s.dt := rfl
@[simp] theorem writeIndexFlag_st (n : Nat) : (writeIndexFlag n s).st = s.st := rfl
@[simp] theorem writeIndexFlag_key (n : Nat) : (writeIndexFlag n s).key = s.key := rfl
@[simp] theorem writeIndexFlag_run (n : Nat) : (writeIndexFlag n s).run = s.run := rfl
@[simp] theorem writeIndexFlag_cpuAcc (n : Nat) : (writeIndexFlag n s).cpuAcc = s.cpuAcc := rfl
@[simp] theorem writeIndexFlag_tickAcc (n : Nat) : (writeIndexFlag n s).tickAcc = s.tickAcc := rfl
@[simp] theorem writeIndexFlag_schip (n : Nat) : (writeIndexFlag n s).schip = s.schip := rfl
@[simp] theorem writeIndexFlag_trace (n : Nat) : (writeIndexFlag n s).trace = s.trace := rfl
@[simp] theorem writeIndexFlag_rflick (n : Nat) : (writeIndexFlag n s).rflick = s.rflick := rfl
@[simp] theorem writeIndexFlag_cpuHz (n : Nat) : (writeIndexFlag n s).cpuHz = s.cpuHz := rfl
@[simp] theorem writeIndexFlag_romLen (n : Nat) : (writeIndexFlag n s).romLen = s.romLen := rfl
@[simp] theorem writeIndexFlag_rom (n : Nat) : (writeIndexFlag n s).rom = s.rom := rfl
@[simp] theorem writeIndexFlag_fault (n : Nat) : (writeIndexFlag n s).fault = s.fault := rfl
@[simp] theorem writeIndexFlag_fetchWord (n : Nat) : (writeIndexFlag n s).fetchWord = s.fetchWord := rfl
@[simp] theorem writeIndexFlag_fetchAddr (n : Nat) : (writeIndexFlag n s).fetchAddr = s.fetchAddr := rfl
@[simp] theorem writeIndexFlag_drew (n : Nat) : (writeIndexFlag n s).drew = s.drew := rfl
@[simp] theorem writeIndexFlag_beep (n : Nat) : (writeIndexFlag n s).beep = s.beep := rfl
@[simp] theorem writeIndexFlag_draws (n : Nat) : (writeIndexFlag n s).draws = s.draws := rfl
@[simp] theorem writeIndexFlag_steps (n : Nat) : (writeIndexFlag n s).steps = s.steps := rfl
@[simp] theorem writeIndexFlag_keyAt (n : Nat) (j : RegIdx) : (writeIndexFlag n s).keyAt j = s.keyAt j := rfl
@[simp] theorem writeIndexFlag_cell (n : Nat) (p q : Nat) : (writeIndexFlag n s).cell p q = s.cell p q := rfl
@[simp] theorem writeIndexFlag_on (n : Nat) (p q : Nat) : (writeIndexFlag n s).on p q = s.on p q := rfl

@[simp] theorem tickDown_v : (tickDown s).v = s.v := rfl
@[simp] theorem tickDown_i : (tickDown s).i = s.i := rfl
@[simp] theorem tickDown_pc : (tickDown s).pc = s.pc := rfl
@[simp] theorem tickDown_sp : (tickDown s).sp = s.sp := rfl
@[simp] theorem tickDown_stack : (tickDown s).stack = s.stack := rfl
@[simp] theorem tickDown_mem : (tickDown s).mem = s.mem := rfl
@[simp] theorem tickDown_disp : (tickDown s).disp = s.disp := rfl
@[simp] theorem tickDown_key : (tickDown s).key = s.key := rfl
@[simp] theorem tickDown_run : (tickDown s).run = s.run := rfl
@[simp] theorem tickDown_cpuAcc : (tickDown s).cpuAcc = s.cpuAcc := rfl
@[simp] theorem tickDown_tickAcc : (tickDown s).tickAcc = s.tickAcc := rfl
@[simp] theorem tickDown_schip : (tickDown s).schip = s.schip := rfl
@[simp] theorem tickDown_trace : (tickDown s).trace = s.trace := rfl
@[simp] theorem tickDown_rflick : (tickDown s).rflick = s.rflick := rfl
@[simp] theorem tickDown_cpuHz : (tickDown s).cpuHz = s.cpuHz := rfl
@[simp] theorem tickDown_romLen : (tickDown s).romLen = s.romLen := rfl
@[simp] theorem tickDown_rom : (tickDown s).rom = s.rom := rfl
@[simp] theorem tickDown_fault : (tickDown s).fault = s.fault := rfl
@[simp] theorem tickDown_fetchWord : (tickDown s).fetchWord = s.fetchWord := rfl
@[simp] theorem tickDown_fetchAddr : (tickDown s).fetchAddr = s.fetchAddr := rfl
@[simp] theorem tickDown_drew : (tickDown s).drew = s.drew := rfl
@[simp] theorem tickDown_beep : (tickDown s).beep = s.beep := rfl
@[simp] theorem tickDown_draws : (tickDown s).draws = s.draws := rfl
@[simp] theorem tickDown_steps : (tickDown s).steps = s.steps := rfl
@[simp] theorem tickDown_reg  (y : RegIdx) : (tickDown s).reg y = s.reg y := rfl
@[simp] theorem tickDown_keyAt  (j : RegIdx) : (tickDown s).keyAt j = s.keyAt j := rfl
@[simp] theorem tickDown_cell  (p q : Nat) : (tickDown s).cell p q = s.cell p q := rfl
@[simp] theorem tickDown_on  (p q : Nat) : (tickDown s).on p q = s.on p q := rfl

@[simp] theorem sweepAfter_v : (sweepAfter s).v = s.v := by unfold sweepAfter; split <;> rfl
@[simp] theorem sweepAfter_i : (sweepAfter s).i = s.i := by unfold sweepAfter; split <;> rfl
@[simp] theorem sweepAfter_pc : (sweepAfter s).pc = s.pc := by unfold sweepAfter; split <;> rfl
@[simp] theorem sweepAfter_sp : (sweepAfter s).sp = s.sp := by unfold sweepAfter; split <;> rfl
@[simp] theorem sweepAfter_stack : (sweepAfter s).stack = s.stack := by unfold sweepAfter; split <;> rfl
@[simp] theorem sweepAfter_mem : (sweepAfter s).mem = s.mem := by unfold sweepAfter; split <;> rfl
@[simp] theorem sweepAfter_disp : (sweepAfter s).disp = s.disp := by unfold sweepAfter; split <;> rfl
@[simp] theorem sweepAfter_dt : (sweepAfter s).dt = s.dt := by unfold sweepAfter; split <;> rfl
@[simp] theorem sweepAfter_st : (sweepAfter s).st = s.st := by unfold sweepAfter; split <;> rfl
@[simp] theorem sweepAfter_run : (sweepAfter s).run = s.run := by unfold sweepAfter; split <;> rfl
@[simp] theorem sweepAfter_cpuAcc : (sweepAfter s).cpuAcc = s.cpuAcc := by unfold sweepAfter; split <;> rfl
@[simp] theorem sweepAfter_tickAcc : (sweepAfter s).tickAcc = s.tickAcc := by unfold sweepAfter; split <;> rfl
@[simp] theorem sweepAfter_schip : (sweepAfter s).schip = s.schip := by unfold sweepAfter; split <;> rfl
@[simp] theorem sweepAfter_trace : (sweepAfter s).trace = s.trace := by unfold sweepAfter; split <;> rfl
@[simp] theorem sweepAfter_rflick : (sweepAfter s).rflick = s.rflick := by unfold sweepAfter; split <;> rfl
@[simp] theorem sweepAfter_cpuHz : (sweepAfter s).cpuHz = s.cpuHz := by unfold sweepAfter; split <;> rfl
@[simp] theorem sweepAfter_romLen : (sweepAfter s).romLen = s.romLen := by unfold sweepAfter; split <;> rfl
@[simp] theorem sweepAfter_rom : (sweepAfter s).rom = s.rom := by unfold sweepAfter; split <;> rfl
@[simp] theorem sweepAfter_fault : (sweepAfter s).fault = s.fault := by unfold sweepAfter; split <;> rfl
@[simp] theorem sweepAfter_fetchWord : (sweepAfter s).fetchWord = s.fetchWord := by unfold sweepAfter; split <;> rfl
@[simp] theorem sweepAfter_fetchAddr : (sweepAfter s).fetchAddr = s.fetchAddr := by unfold sweepAfter; split <;> rfl
@[simp] theorem sweepAfter_drew : (sweepAfter s).drew = s.drew := by unfold sweepAfter; split <;> rfl
@[simp] theorem sweepAfter_beep : (sweepAfter s).beep = s.beep := by unfold sweepAfter; split <;> rfl
@[simp] theorem sweepAfter_draws : (sweepAfter s).draws = s.draws := by unfold sweepAfter; split <;> rfl
@[simp] theorem sweepAfter_steps : (sweepAfter s).steps = s.steps := by unfold sweepAfter; split <;> rfl
@[simp] theorem sweepAfter_reg  (y : RegIdx) : (sweepAfter s).reg y = s.reg y := by unfold sweepAfter; split <;> rfl
@[simp] theorem sweepAfter_cell  (p q : Nat) : (sweepAfter s).cell p q = s.cell p q := by unfold sweepAfter; split <;> rfl
@[simp] theorem sweepAfter_on  (p q : Nat) : (sweepAfter s).on p q = s.on p q := by unfold sweepAfter; split <;> rfl

@[simp] theorem beginStep_v (e : Rat) : (beginStep e s).v = s.v := rfl
@[simp] theorem beginStep_i (e : Rat) : (beginStep e s).i = s.i := rfl
@[simp] theorem beginStep_pc (e : Rat) : (beginStep e s).pc = s.pc := rfl
@[simp] theorem beginStep_sp (e : Rat) : (beginStep e s).sp = s.sp := rfl
@[simp] theorem beginStep_stack (e : Rat) : (beginStep e s).stack = s.stack := rfl
@[simp] theorem beginStep_mem (e : Rat) : (beginStep e s).mem = s.mem := rfl
@[simp] theorem beginStep_disp (e : Rat) : (beginStep e s).disp = s.disp := rfl
@[simp] theorem beginStep_dt (e : Rat) : (beginStep e s).dt = s.dt := rfl
@[simp] theorem beginStep_st (e : Rat) : (beginStep e s).st = s.st := rfl
@[simp] theorem beginStep_key (e : Rat) : (beginStep e s).key = s.key := rfl
@[simp] theorem beginStep_run (e : Rat) : (beginStep e s).run = s.run := rfl
@[simp] theorem beginStep_schip (e : Rat) : (beginStep e s).schip = s.schip := rfl
@[simp] theorem beginStep_trace (e : Rat) : (beginStep e s).trace = s.trace := rfl
@[simp] theorem beginStep_rflick (e : Rat) : (beginStep e s).rflick = s.rflick := rfl
@[simp] theorem beginStep_cpuHz (e : Rat) : (beginStep e s).cpuHz = s.cpuHz := rfl
@[simp] theorem beginStep_romLen (e : Rat) : (beginStep e s).romLen = s.romLen := rfl
@[simp] theorem beginStep_rom (e : Rat) : (beginStep e s).rom = s.rom := rfl
@[simp] theorem beginStep_fault (e : Rat) : (beginStep e s).fault = s.fault := rfl
@[simp] theorem beginStep_fetchWord (e : Rat) : (beginStep e s).fetchWord = s.fetchWord := rfl
@[simp] theorem beginStep_fetchAddr (e : Rat) : (beginStep e s).fetchAddr = s.fetchAddr := rfl
@[simp] theorem beginStep_beep (e : Rat) : (beginStep e s).beep = s.beep := rfl
@[simp] theorem beginStep_draws (e : Rat) : (beginStep e s).draws = s.draws := rfl
@[simp] theorem beginStep_reg (e : Rat) (y : RegIdx) : (beginStep e s).reg y = s.reg y := rfl
@[simp] theorem beginStep_keyAt (e : Rat) (j : RegIdx) : (beginStep e s).keyAt j = s.keyAt j := rfl
@[simp] theorem beginStep_cell (e : Rat) (p q : Nat) : (beginStep e s).cell p q = s.cell p q := rfl
@[simp] theorem beginStep_on (e : Rat) (p q : Nat) : (beginStep e s).on p q = s.on p q := rfl

end Sys2Proof.Machine
end

