-- ==== Sys2Proof/Laws/Ops.lean ====
section
/-! SUPPORT. One lemma per named operation, saying what it does: registers, flags, stack, key latch, display grid,
bounded memory access, fetch. Later proofs cite these instead of unfolding the operation. -/

namespace Sys2Proof.Machine

/-! Registers and flags -/

theorem State.reg_setReg (s : State) (x y : RegIdx) (b : Byte) :
    (s.setReg x b).reg y = if x = y then b else s.reg y := by
  unfold State.reg State.setReg
  rw [Vector.getElem_set]
  simp only [BitVec.toNat_inj]

@[simp] theorem State.reg_setReg_self (s : State) (x : RegIdx) (b : Byte) : (s.setReg x b).reg x = b := by
  rw [State.reg_setReg, if_pos rfl]

theorem State.reg_setReg_of_ne (s : State) {x y : RegIdx} (b : Byte) (h : y ≠ x) :
    (s.setReg x b).reg y = s.reg y := by
  rw [State.reg_setReg, if_neg (Ne.symm h)]

/-- Two states with the same registers read the same, and conversely. -/
theorem State.v_eq_of_reg_eq {s t : State} (h : ∀ x, s.reg x = t.reg x) : s.v = t.v := by
  apply Vector.ext
  intro n hn
  have := h (BitVec.ofNat 4 n)
  simpa [State.reg, Nat.mod_eq_of_lt hn] using this

theorem State.reg_setFlag (s : State) (b : Bool) (y : RegIdx) :
    (s.setFlag b).reg y = if vf = y then flagByte b else s.reg y := State.reg_setReg s vf y _

@[simp] theorem State.reg_setFlag_vf (s : State) (b : Bool) : (s.setFlag b).reg vf = flagByte b := by
  rw [State.reg_setFlag, if_pos rfl]

/-- The flag is written last (R21, R133). -/
theorem reg_writeResultFlag (x y : RegIdx) (r : Byte) (f : Bool) (s : State) :
    (writeResultFlag x r f s).reg y = if vf = y then flagByte f else if x = y then r else s.reg y := by
  rw [writeResultFlag, State.reg_setFlag, State.reg_setReg]

/-- Legacy mode clears `VF` after the result (R123). -/
theorem reg_writeLogic (x y : RegIdx) (r : Byte) (s : State) :
    (writeLogic x r s).reg y =
      if s.schip = false ∧ vf = y then 0 else if x = y then r else s.reg y := by
  unfold writeLogic
  cases h : s.schip
  · simp [State.reg_setFlag, State.reg_setReg, flagByte]
  · simp [State.reg_setReg]

theorem reg_writeIndexFlag (n : Nat) (s : State) (y : RegIdx) :
    (writeIndexFlag n s).reg y =
      if vf = y then
        if n ≥ Config.memSize then 1 else if Config.addiVfClear then 0 else s.reg vf
      else s.reg y := State.reg_setReg s vf y _

@[simp] theorem raise_fault (c : FaultCause) (s : State) :
    (raise c s).fault = some ⟨c, s.fetchWord, s.fetchAddr⟩ := rfl

theorem skipIf_pc (c : Bool) (s : State) : (skipIf c s).pc = if c then s.pc + 2 else s.pc := by
  cases c <;> rfl

theorem blockAdvance_i (s : State) : (blockAdvance s).i = if s.schip then s.i else s.i + 1 := by
  unfold blockAdvance; split <;> rfl

/-! The return stack (R24) -/

/-- What a push can answer. -/
theorem push_cases (a : Word) (s : State) :
    (s.sp.val = 16 ∧ push a s = .error .stackOverflow) ∨
      ∃ h : s.sp.val < 16,
        push a s = .ok ((s.setStack (s.stack.set s.sp.val a h)).setSp ⟨s.sp.val + 1, by omega⟩) := by
  have := s.sp.isLt
  by_cases h : s.sp.val < 16
  · exact .inr ⟨h, dif_pos h⟩
  · exact .inl ⟨by omega, dif_neg h⟩

/-- What a pop can answer. -/
theorem pop_cases (s : State) :
    (s.sp.val = 0 ∧ pop s = .error .stackUnderflow) ∨
      ∃ _h : s.sp.val ≠ 0,
        pop s = .ok (s.stack[s.sp.val - 1]'(by have := s.sp.isLt; omega),
          s.setSp ⟨s.sp.val - 1, by have := s.sp.isLt; omega⟩) := by
  by_cases h : s.sp.val = 0
  · exact .inl ⟨h, dif_pos h⟩
  · exact .inr ⟨h, dif_neg h⟩

/-! The key latch (R28) -/

theorem State.keyAt_setKey (s : State) (k j : RegIdx) (q : KeyState) :
    (s.setKey k q).keyAt j = if k = j then q else s.keyAt j := by
  unfold State.keyAt State.setKey State.setKeys
  rw [Vector.getElem_set]
  simp only [BitVec.toNat_inj]

theorem State.key_eq_of_keyAt_eq {s t : State} (h : ∀ k, s.keyAt k = t.keyAt k) : s.key = t.key := by
  apply Vector.ext
  intro n hn
  have := h (BitVec.ofNat 4 n)
  simpa [State.keyAt, Nat.mod_eq_of_lt hn] using this

theorem mem_allKeys (k : RegIdx) : k ∈ allKeys := by
  revert k; decide

/-- The sweep, slot by slot (R205). -/
theorem sweepKeys_getElem (k : Vector KeyState 16) (n : Nat) (h : n < 16) :
    (sweepKeys k)[n] = sweepSlot k[n] := by
  simp [sweepKeys]

theorem sweepAfter_keyAt (s : State) (k : RegIdx) :
    (sweepAfter s).keyAt k = if s.fault.isSome then s.keyAt k else sweepSlot (s.keyAt k) := by
  unfold sweepAfter
  split
  · rfl
  · exact sweepKeys_getElem _ _ _

/-! The display grid (R26) -/

theorem Display.get_set (d : Display) (x y p q : Nat) (b : Byte) :
    Display.get (Display.set d x y b) p q =
      if (x = p ∧ y = q) ∧ x < Config.dispW ∧ y < Config.dispH then b else Display.get d p q := by
  by_cases hxy : x < Config.dispW ∧ y < Config.dispH
  · by_cases hpq : p < Config.dispW ∧ q < Config.dispH
    · simp only [Display.set, Display.get, dif_pos hxy, dif_pos hpq, Vector.getElem_set]
      by_cases hq : y = q
      · subst hq
        simp only [if_true, Vector.getElem_set]
        by_cases hp : x = p <;> simp [hp]
        intro h1; omega
      · simp [hq]
    · have : ¬((x = p ∧ y = q) ∧ x < Config.dispW ∧ y < Config.dispH) := by
        rintro ⟨⟨rfl, rfl⟩, h⟩; exact hpq h
      rw [if_neg this]
      simp only [Display.get, dif_neg hpq]
  · rw [if_neg (fun h => hxy h.2)]
    simp only [Display.set, dif_neg hxy]

@[simp] theorem Display.get_blank (x y : Nat) : Display.get Display.blank x y = 0 := by
  unfold Display.get Display.blank
  split <;> simp

/-- Two grids with the same cells are the same grid. -/
theorem Display.ext_get {d e : Display}
    (h : ∀ x y, x < Config.dispW → y < Config.dispH → Display.get d x y = Display.get e x y) : d = e := by
  apply Vector.ext
  intro y hy
  apply Vector.ext
  intro x hx
  have := h x y hx hy
  simpa [Display.get, hx, hy] using this

theorem State.cell_setDisp (s : State) (d : Display) (x y : Nat) :
    (s.setDisp d).cell x y = Display.get d x y := rfl

/-! Bounded memory access (R10, R57) -/

/-- What a byte read can answer. -/
theorem memRead_cases (a : Nat) (s : State) :
    (a > 0xFFF ∧ memRead a s = .error (.memBounds a)) ∨
      (a ≤ 0xFFF ∧ memRead a s = .ok (s.mem.read a)) := by
  by_cases h : a > 0xFFF
  · exact .inl ⟨h, if_pos h⟩
  · exact .inr ⟨by omega, if_neg h⟩

theorem memRead_ok {a : Nat} {s : State} (h : a ≤ 0xFFF) : memRead a s = .ok (s.mem.read a) :=
  if_neg (by omega)

theorem memRead_error {a : Nat} {s : State} (h : a > 0xFFF) : memRead a s = .error (.memBounds a) :=
  if_pos h

/-- What a byte write can answer. -/
theorem memWrite_cases (a : Nat) (b : Byte) (s : State) :
    (a > 0xFFF ∧ memWrite a b s = .error (.memBounds a)) ∨
      (a ≤ 0xFFF ∧ memWrite a b s = .ok (s.setMem (s.mem.write a b))) := by
  by_cases h : a > 0xFFF
  · exact .inl ⟨h, if_pos h⟩
  · exact .inr ⟨by omega, if_neg h⟩

theorem memWrite_ok {a : Nat} {b : Byte} {s : State} (h : a ≤ 0xFFF) :
    memWrite a b s = .ok (s.setMem (s.mem.write a b)) := if_neg (by omega)

theorem memWrite_error {a : Nat} {b : Byte} {s : State} (h : a > 0xFFF) :
    memWrite a b s = .error (.memBounds a) := if_pos h

/-- A write that succeeds keeps the canonical form of memory. -/
theorem memWrite_keeps_wf {a : Nat} {b : Byte} {s t : State} (hs : s.mem.wf)
    (h : memWrite a b s = .ok t) : t.mem.wf := by
  rcases memWrite_cases a b s with ⟨_, he⟩ | ⟨ha, he⟩
  · rw [he] at h; cases h
  · rw [he] at h; cases h
    exact Memory.write_keeps_wf hs (by show a < 4096; omega) b

/-- What a fetch can answer (R203). -/
theorem fetch_cases (s : State) :
    (s.pc.toNat > 0xFFF ∧ fetch s = .error (.memBounds s.pc.toNat)) ∨
      (s.pc.toNat = 0xFFF ∧ fetch s = .error (.memBounds 0x1000)) ∨
      (s.pc.toNat ≤ 0xFFE ∧
        fetch s = .ok ((s.setFetched
          (wordOfBytes (s.mem.read s.pc.toNat) (s.mem.read (s.pc.toNat + 1))) s.pc).setPc (s.pc + 2))) := by
  unfold fetch memReadWord
  rcases memRead_cases s.pc.toNat s with ⟨h1, e1⟩ | ⟨h1, e1⟩
  · exact .inl ⟨h1, by rw [e1]⟩
  · rcases memRead_cases (s.pc.toNat + 1) s with ⟨h2, e2⟩ | ⟨h2, e2⟩
    · have h3 : s.pc.toNat = 0xFFF := by omega
      exact .inr (.inl ⟨h3, by rw [e1]; simp only [e2]; simp [h3]⟩)
    · exact .inr (.inr ⟨by omega, by rw [e1]; simp only [e2]⟩)

end Sys2Proof.Machine
end

