-- ==== Sys2Proof/Laws/Blit.lean ====
section
/-! SUPPORT. What the sprite-blit engine does: one bit, one row, and the rows it reaches (spec/42_display.md R144 to
R149). -/

namespace Sys2Proof.Machine

/-- `on(x,y)` of a grid. -/
def gridOn (d : Display) (x y : Nat) : Bool := Display.get d x y == 255#8

/-- A cell that ends not full-on never holds 255 (R149). -/
theorem offValue_ne_full (trace : Bool) (old : Byte) : offValue trace old ≠ 255#8 := by
  unfold offValue
  cases trace
  · simp
  · intro h
    have h1 := congrArg BitVec.toNat h
    have h2 := (Config.traceFn old).isLt
    simp at h1
    omega

/-- One bit changes one cell (R146). -/
theorem blitBit_get (trace bit : Bool) (x y p q : Nat) (b : Blit) :
    Display.get (blitBit trace x y bit b).grid p q =
      if (x = p ∧ y = q) ∧ x < Config.dispW ∧ y < Config.dispH then
        (if xor (gridOn b.grid x y) bit then 255#8 else offValue trace (Display.get b.grid x y))
      else Display.get b.grid p q := Display.get_set _ _ _ _ _ _

/-- In terms of the logical framebuffer one bit is one exclusive or (R146). -/
theorem blitBit_on (trace bit : Bool) {x y : Nat} (p q : Nat) (b : Blit)
    (hx : x < Config.dispW) (hy : y < Config.dispH) :
    gridOn (blitBit trace x y bit b).grid p q =
      xor (gridOn b.grid p q) (decide (x = p) && decide (y = q) && bit) := by
  unfold gridOn
  rw [blitBit_get]
  by_cases h : x = p ∧ y = q
  · obtain ⟨rfl, rfl⟩ := h
    rw [if_pos ⟨⟨rfl, rfl⟩, hx, hy⟩]
    unfold gridOn
    cases hb : xor (Display.get b.grid x y == 255#8) bit
    · simp only [Bool.false_eq_true, if_false, decide_true, Bool.true_and, hb]
      exact beq_eq_false_iff_ne.2 (offValue_ne_full _ _)
    · simp only [if_true, decide_true, Bool.true_and, hb, beq_self_eq_true]
  · rw [if_neg (fun h' => h h'.1)]
    have : (decide (x = p) && decide (y = q) && bit) = false := by
      by_cases hp : x = p
      · simp [hp, show y ≠ q from fun hq => h ⟨hp, hq⟩]
      · simp [hp]
    rw [this, Bool.xor_false]

theorem blitBit_hit (trace bit : Bool) (x y : Nat) (b : Blit) :
    (blitBit trace x y bit b).hit = (b.hit || (gridOn b.grid x y && bit)) := by
  show (b.hit || ((Display.get b.grid x y == 255#8) && !(xor (Display.get b.grid x y == 255#8) bit))) = _
  unfold gridOn
  cases Display.get b.grid x y == 255#8 <;> cases bit <;> rfl

theorem blitBit_new (trace bit : Bool) (x y : Nat) (b : Blit) :
    (blitBit trace x y bit b).new = (b.new || (!gridOn b.grid x y && bit)) := by
  show (b.new || ((xor (Display.get b.grid x y == 255#8) bit) && !(Display.get b.grid x y == 255#8))) = _
  unfold gridOn
  cases Display.get b.grid x y == 255#8 <;> cases bit <;> rfl

theorem bitColumn_lt (x0 c : Nat) : bitColumn x0 c < Config.dispW := by
  show min (x0 + c) 63 < 64; omega

/-- Whether bits `c`, `c + 1`, …, `count` of them, of a row toggle column `p` an odd number of times (R152). -/
def bitsToggle (x0 : Nat) (row : Byte) (p : Nat) : (count c : Nat) → Bool
  | 0, _ => false
  | count + 1, c =>
    xor (decide (bitColumn x0 c = p) && row.getLsbD (7 - c)) (bitsToggle x0 row p count (c + 1))

/-- The bits of a row toggle the cells of their columns (R145, R146, R152). -/
theorem blitBits_on (trace : Bool) (x0 : Nat) {y : Nat} (row : Byte) (p q count c : Nat) (b : Blit)
    (hy : y < Config.dispH) :
    gridOn (blitBits trace x0 y row count c b).grid p q =
      xor (gridOn b.grid p q) (decide (y = q) && bitsToggle x0 row p count c) := by
  induction count generalizing c b with
  | zero => simp [blitBits, bitsToggle]
  | succ count ih =>
    rw [blitBits, ih, blitBit_on _ _ _ _ _ (bitColumn_lt x0 c) hy, bitsToggle]
    cases gridOn b.grid p q <;> cases decide (bitColumn x0 c = p) <;> cases decide (y = q) <;>
      cases row.getLsbD (7 - c) <;> cases bitsToggle x0 row p count (c + 1) <;> rfl

/-- A row leaves alone the cells of other rows and of columns no bit goes to. -/
theorem blitBits_get_of_ne (trace : Bool) (x0 y : Nat) (row : Byte) (p q count c : Nat) (b : Blit)
    (h : y ≠ q ∨ ∀ j, c ≤ j → j < c + count → bitColumn x0 j ≠ p) :
    Display.get (blitBits trace x0 y row count c b).grid p q = Display.get b.grid p q := by
  induction count generalizing c b with
  | zero => rfl
  | succ count ih =>
    rw [blitBits, ih, blitBit_get, if_neg]
    · rintro ⟨⟨h1, h2⟩, -⟩
      rcases h with h | h
      · exact h h2
      · exact h c (le_refl _) (by omega) h1
    · exact h.imp id fun h j h1 h2 => h j (by omega) (by omega)

/-- Rows `r`, `r + 1`, …, `count` of them, drawn with no bound left to test. -/
def drawRows (s : State) (x0 y0 : Nat) : (count r : Nat) → Blit → Blit
  | 0, _, b => b
  | count + 1, r, b =>
    drawRows s x0 y0 count (r + 1) (blitRow s.trace x0 (y0 + r) (s.mem.read (dataAddr r s)) b)

/-- How many rows of a sprite are neither clipped nor out of memory. -/
def rowsReached (s : State) (y0 count r : Nat) : Nat :=
  min count (min (Config.dispH - (y0 + r)) (4096 - dataAddr r s))

/-- The blit, whole: the rows it reaches are drawn, and it faults if the first row it does not reach is on the display
(R144, R248). -/
theorem blitRows_eq (s : State) (x0 y0 count r : Nat) (b : Blit) :
    blitRows s x0 y0 count r b =
      (drawRows s x0 y0 (rowsReached s y0 count r) r b,
        if rowsReached s y0 count r < count ∧ y0 + r + rowsReached s y0 count r < Config.dispH
        then some (.memBounds (dataAddr (r + rowsReached s y0 count r) s)) else none) := by
  induction count generalizing r b with
  | zero => simp [blitRows, rowsReached, drawRows]
  | succ count ih =>
    have hd : dataAddr (r + 1) s = dataAddr r s + 1 := by simp [dataAddr]; omega
    rw [blitRows]
    by_cases hy : y0 + r ≥ Config.dispH
    · have h0 : rowsReached s y0 (count + 1) r = 0 := by
        simp only [rowsReached]; omega
      rw [if_pos hy, h0, if_neg (by omega)]
      rfl
    · rw [if_neg hy]
      rcases memRead_cases (dataAddr r s) s with ⟨ha, he⟩ | ⟨ha, he⟩
      · have h0 : rowsReached s y0 (count + 1) r = 0 := by
          simp only [rowsReached]; omega
        rw [he, h0, if_pos (by omega)]
        rfl
      · have hk : rowsReached s y0 (count + 1) r = rowsReached s y0 count (r + 1) + 1 := by
          simp only [rowsReached, hd]; omega
        have ha2 : ∀ k, r + 1 + k = r + (k + 1) := by intro k; omega
        rw [he]
        simp only [ih, hk, drawRows, ha2]
        congr 1
        simp only [show y0 + (r + 1) + rowsReached s y0 count (r + 1) =
          y0 + r + (rowsReached s y0 count (r + 1) + 1) by omega, Nat.add_lt_add_iff_right]

/-- Drawn rows toggle the cells of their columns (R152). -/
theorem drawRows_on (s : State) (x0 y0 p q count r : Nat) (b : Blit)
    (h : y0 + r + count ≤ Config.dispH) :
    gridOn (drawRows s x0 y0 count r b).grid p q =
      xor (gridOn b.grid p q)
        (decide (y0 + r ≤ q ∧ q < y0 + r + count) &&
          bitsToggle x0 (s.mem.read (dataAddr (q - y0) s)) p 8 0) := by
  induction count generalizing r b with
  | zero =>
    have : decide (y0 + r ≤ q ∧ q < y0 + r + 0) = false := decide_eq_false (by omega)
    rw [this]; simp [drawRows]
  | succ count ih =>
    rw [drawRows, ih _ _ (by omega), blitRow, blitBits_on _ _ _ _ _ _ _ _ (by omega)]
    by_cases hq : y0 + r = q
    · have h1 : decide (y0 + (r + 1) ≤ q ∧ q < y0 + (r + 1) + count) = false := decide_eq_false (by omega)
      have h2 : decide (y0 + r ≤ q ∧ q < y0 + r + (count + 1)) = true := decide_eq_true (by omega)
      rw [h1, h2, show q - y0 = r by omega, decide_eq_true hq]
      simp
    · have h1 : decide (y0 + (r + 1) ≤ q ∧ q < y0 + (r + 1) + count) =
          decide (y0 + r ≤ q ∧ q < y0 + r + (count + 1)) := by
        congr 1; apply propext; omega
      rw [h1, decide_eq_false hq]
      simp

/-- Drawn rows leave alone the cells outside their rows and columns. -/
theorem drawRows_get_of_ne (s : State) (x0 y0 p q count r : Nat) (b : Blit)
    (h : q < y0 + r ∨ y0 + r + count ≤ q ∨ ∀ j, j < 8 → bitColumn x0 j ≠ p) :
    Display.get (drawRows s x0 y0 count r b).grid p q = Display.get b.grid p q := by
  induction count generalizing r b with
  | zero => rfl
  | succ count ih =>
    rw [drawRows, ih, blitRow, blitBits_get_of_ne]
    · rcases h with h | h | h
      · exact .inl (by omega)
      · exact .inl (by omega)
      · exact .inr fun j _ hj => h j (by omega)
    · rcases h with h | h | h
      · exact .inl (by omega)
      · exact .inr (.inl (by omega))
      · exact .inr (.inr h)

/-! Bit by bit: parities, intensities, collisions and new pixels, for every start column -/

/-- The toggles of a column are the parity of the 1 bits that go to it. -/
theorem bitsToggle_eq (x0 : Nat) (row : Byte) (p count c : Nat) :
    bitsToggle x0 row p count c =
      ((List.range' c count).countP (fun d => decide (min (x0 + d) 63 = p) && row.getLsbD (7 - d)) % 2 == 1) := by
  induction count generalizing c with
  | zero => rfl
  | succ count ih =>
    have hc : decide (bitColumn x0 c = p) = decide (min (x0 + c) 63 = p) := rfl
    rw [bitsToggle, ih, hc, List.range'_succ, List.countP_cons]
    generalize List.countP _ _ = k
    cases decide (min (x0 + c) 63 = p) && row.getLsbD (7 - c)
    · simp
    · have := Nat.mod_two_eq_zero_or_one k
      rcases this with h | h <;> simp [Nat.add_mod, h]

theorem bitsToggle_eq_oddBits (x0 : Nat) (row : Byte) (p : Nat) : bitsToggle x0 row p 8 0 = oddBits x0 row p := by
  rw [bitsToggle_eq, oddBits, List.range_eq_range']

/-- The state of a row scan after one more bit. -/
theorem blitBits_succ (trace : Bool) (x0 y : Nat) (row : Byte) (count c : Nat) (b : Blit) :
    blitBits trace x0 y row (count + 1) c b =
      blitBit trace (bitColumn x0 (c + count)) y (row.getLsbD (7 - (c + count))) (blitBits trace x0 y row count c b) := by
  induction count generalizing c b with
  | zero => rfl
  | succ count ih =>
    rw [blitBits, ih, show c + 1 + count = c + (count + 1) by omega]
    rfl

/-- Bit `c` of a row scan finds its cell on exactly when `findsOn` says so (R146, R147, R152). -/
theorem blitBits_findsOn (trace : Bool) (x0 : Nat) {y : Nat} (row : Byte) (c : Nat) (b : Blit) (hy : y < Config.dispH) :
    gridOn (blitBits trace x0 y row c 0 b).grid (bitColumn x0 c) y =
      findsOn x0 row (fun p => gridOn b.grid p y) c := by
  rw [blitBits_on _ _ _ _ _ _ _ _ hy, bitsToggle_eq, findsOn, List.range_eq_range', decide_eq_true rfl, Bool.true_and]
  rfl

/-- A row collides when one of its 1 bits finds its cell on (R147). -/
theorem blitBits_hit (trace : Bool) (x0 : Nat) {y : Nat} (row : Byte) (count : Nat) (b : Blit) (hy : y < Config.dispH) :
    (blitBits trace x0 y row count 0 b).hit = true ↔ b.hit = true ∨
      ∃ c < count, row.getLsbD (7 - c) = true ∧ findsOn x0 row (fun p => gridOn b.grid p y) c = true := by
  induction count with
  | zero => simp [blitBits]
  | succ count ih =>
    rw [blitBits_succ, Nat.zero_add, blitBit_hit, blitBits_findsOn _ _ _ _ _ hy, Bool.or_eq_true, ih, Bool.and_eq_true,
      or_assoc, and_comm (a := findsOn x0 row (fun p => gridOn b.grid p y) count = true)]
    simp only [Nat.exists_lt_succ_right]

/-- A row draws a new pixel when one of its 1 bits finds its cell off (R148). -/
theorem blitBits_new (trace : Bool) (x0 : Nat) {y : Nat} (row : Byte) (count : Nat) (b : Blit) (hy : y < Config.dispH) :
    (blitBits trace x0 y row count 0 b).new = true ↔ b.new = true ∨
      ∃ c < count, row.getLsbD (7 - c) = true ∧ findsOn x0 row (fun p => gridOn b.grid p y) c = false := by
  induction count with
  | zero => simp [blitBits]
  | succ count ih =>
    rw [blitBits_succ, Nat.zero_add, blitBit_new, blitBits_findsOn _ _ _ _ _ hy, Bool.or_eq_true, ih, Bool.and_eq_true,
      Bool.not_eq_true', or_assoc, and_comm (a := findsOn x0 row (fun p => gridOn b.grid p y) count = false)]
    simp only [Nat.exists_lt_succ_right]

/-- A row leaves the logical cells of the other display rows. -/
theorem blitRow_on_of_ne (trace : Bool) (x0 : Nat) {y q : Nat} (row : Byte) (p : Nat) (b : Blit) (h : y ≠ q) :
    gridOn (blitRow trace x0 y row b).grid p q = gridOn b.grid p q := by
  unfold gridOn blitRow
  rw [blitBits_get_of_ne _ _ _ _ _ _ _ _ _ (.inl h)]

/-- Drawn rows collide when a 1 bit of one of them finds its cell on (R147). -/
theorem drawRows_hit (s : State) (x0 y0 count r : Nat) (b : Blit) (h : y0 + r + count ≤ Config.dispH) :
    (drawRows s x0 y0 count r b).hit = true ↔ b.hit = true ∨
      ∃ j < count, ∃ c < 8, (s.mem.read (dataAddr (r + j) s)).getLsbD (7 - c) = true ∧
        findsOn x0 (s.mem.read (dataAddr (r + j) s)) (fun p => gridOn b.grid p (y0 + (r + j))) c = true := by
  induction count generalizing r b with
  | zero => simp [drawRows]
  | succ count ih =>
    rw [drawRows, ih _ _ (by omega), blitRow, blitBits_hit _ _ _ _ _ (by omega), or_assoc]
    refine or_congr Iff.rfl (Iff.trans ?_ Nat.exists_lt_succ_left.symm)
    refine or_congr Iff.rfl (exists_congr fun j => and_congr Iff.rfl ?_)
    have hon : ∀ p, gridOn (blitBits s.trace x0 (y0 + r) (s.mem.read (dataAddr r s)) 8 0 b).grid p (y0 + (r + (j + 1))) =
        gridOn b.grid p (y0 + (r + (j + 1))) := fun p => blitRow_on_of_ne _ _ _ _ _ (by omega)
    simp only [show r + 1 + j = r + (j + 1) by omega, hon]

/-- Drawn rows draw a new pixel when a 1 bit of one of them finds its cell off (R148). -/
theorem drawRows_new (s : State) (x0 y0 count r : Nat) (b : Blit) (h : y0 + r + count ≤ Config.dispH) :
    (drawRows s x0 y0 count r b).new = true ↔ b.new = true ∨
      ∃ j < count, ∃ c < 8, (s.mem.read (dataAddr (r + j) s)).getLsbD (7 - c) = true ∧
        findsOn x0 (s.mem.read (dataAddr (r + j) s)) (fun p => gridOn b.grid p (y0 + (r + j))) c = false := by
  induction count generalizing r b with
  | zero => simp [drawRows]
  | succ count ih =>
    rw [drawRows, ih _ _ (by omega), blitRow, blitBits_new _ _ _ _ _ (by omega), or_assoc]
    refine or_congr Iff.rfl (Iff.trans ?_ Nat.exists_lt_succ_left.symm)
    refine or_congr Iff.rfl (exists_congr fun j => and_congr Iff.rfl ?_)
    have hon : ∀ p, gridOn (blitBits s.trace x0 (y0 + r) (s.mem.read (dataAddr r s)) 8 0 b).grid p (y0 + (r + (j + 1))) =
        gridOn b.grid p (y0 + (r + (j + 1))) := fun p => blitRow_on_of_ne _ _ _ _ _ (by omega)
    simp only [show r + 1 + j = r + (j + 1) by omega, hon]

/-- What one bit of a row does to the intensity of the cell in column `p` (R145, R146, R149). -/
def bitStep (trace : Bool) (x0 : Nat) (row : Byte) (p : Nat) (v : Byte) (c : Nat) : Byte :=
  if bitColumn x0 c = p then (if xor (v == 255#8) (row.getLsbD (7 - c)) then 255#8 else offValue trace v) else v

/-- A row takes each of its cells through its bits in order. -/
theorem blitBits_get (trace : Bool) (x0 : Nat) {y p : Nat} (row : Byte) (count c : Nat) (b : Blit)
    (hp : p < Config.dispW) (hy : y < Config.dispH) :
    Display.get (blitBits trace x0 y row count c b).grid p y =
      (List.range' c count).foldl (bitStep trace x0 row p) (Display.get b.grid p y) := by
  induction count generalizing c b with
  | zero => rfl
  | succ count ih =>
    rw [blitBits, ih, List.range'_succ, List.foldl_cons, blitBit_get]
    congr 1
    unfold bitStep
    by_cases h : bitColumn x0 c = p
    · subst h
      rw [if_pos ⟨⟨rfl, rfl⟩, hp, hy⟩, if_pos rfl]; rfl
    · rw [if_neg (fun h' => h h'.1.1), if_neg h]

theorem intensityAfter_eq (trace : Bool) (x0 : Nat) (row : Byte) (p : Nat) (old : Byte) :
    intensityAfter trace x0 row p old = (List.range' 0 8).foldl (bitStep trace x0 row p) old := by
  unfold intensityAfter
  rw [List.range_eq_range']
  congr 1
  funext v c
  unfold bitStep
  have hb : bitColumn x0 c = min (x0 + c) 63 := rfl
  rw [hb]
  by_cases h : min (x0 + c) 63 = p
  · rw [if_neg (not_not.2 h), if_pos h]
    by_cases hv : v = 255#8 <;> cases row.getLsbD (7 - c) <;> simp [hv, offValue]
  · rw [if_pos h, if_neg h]

/-- Drawn rows give each cell of theirs the intensity its bits lead to (R146, R149). -/
theorem drawRows_get (s : State) (x0 y0 : Nat) {p q : Nat} (count r : Nat) (b : Blit) (h : y0 + r + count ≤ Config.dispH)
    (hp : p < Config.dispW) (h1 : y0 + r ≤ q) (h2 : q < y0 + r + count) :
    Display.get (drawRows s x0 y0 count r b).grid p q =
      intensityAfter s.trace x0 (s.mem.read (dataAddr (q - y0) s)) p (Display.get b.grid p q) := by
  induction count generalizing r b with
  | zero => omega
  | succ count ih =>
    rw [drawRows]
    by_cases hq : y0 + r = q
    · rw [drawRows_get_of_ne _ _ _ _ _ _ _ _ (.inl (by omega)), blitRow, intensityAfter_eq, ← hq,
        blitBits_get _ _ _ _ _ _ hp (by omega), show y0 + r - y0 = r by omega]
    · rw [ih _ _ (by omega) (by omega) (by omega), blitRow, blitBits_get_of_ne _ _ _ _ _ _ _ _ _ (.inl hq)]

end Sys2Proof.Machine
end

