-- ==== Sys2Proof/Laws/Blocks.lean ====
section
/-! SUPPORT. What the byte and register block transfers do, whole: how many bytes they reach before the end of memory,
what those bytes or registers hold, where `I` ends, and the fault if the end is reached (spec/44_index_memory.md R183 to
R185, spec/60_exceptions.md R248). -/

namespace Sys2Proof.Machine

/-- Storing bytes: those below the end of memory are stored, and a byte beyond it faults. -/
theorem storeBytes_eq (a : Nat) (bs : List Byte) (s : State) :
    storeBytes a bs s =
      if a + bs.length ≤ 4096 ∨ bs = [] then s.setMem (s.mem.writeBytes a bs)
      else raise (.memBounds (max a 4096)) (s.setMem (s.mem.writeBytes a (bs.take (4096 - a)))) := by
  induction bs generalizing a s with
  | nil => simp [storeBytes, Memory.writeBytes, State.setMem]
  | cons b bs ih =>
    rcases memWrite_cases a b s with ⟨ha, he⟩ | ⟨ha, he⟩
    · rw [storeBytes, he, if_neg (by simp; omega), show max a 4096 = a by omega,
        show 4096 - a = 0 by omega]
      rfl
    · rw [storeBytes, he]
      simp only [ih]
      have ht : List.take (4096 - a) (b :: bs) = b :: bs.take (4096 - (a + 1)) := by
        rw [show 4096 - a = (4096 - (a + 1)) + 1 by omega]; rfl
      by_cases hb : bs = []
      · subst hb
        rw [if_pos (.inr rfl), if_pos (.inl (by simp; omega))]
        rfl
      · by_cases hl : a + 1 + bs.length ≤ 4096
        · rw [if_pos (.inl hl), if_pos (.inl (by simp; omega))]
          rfl
        · rw [if_neg (by simp [hb]; omega), if_neg (by simp; omega), ht,
            show max (a + 1) 4096 = max a 4096 by omega]
          rfl

/-- The bytes of registers `n`, `n + 1`, …, `count` of them. -/
def regsFrom (s : State) (n count : Nat) : List Byte :=
  (List.range' n count).map fun j => s.reg (BitVec.ofNat 4 j)

/-- How many bytes of a transfer of `count` bytes at `a` lie inside memory. -/
def reached (a count : Nat) : Nat := min count (4096 - a)

theorem blockAddr_advance (n : Nat) (s : State) (m : Memory) (h : blockAddr n s ≤ 0xFFF) :
    blockAddr (n + 1) (blockAdvance (s.setMem m)) = blockAddr n s + 1 := by
  have := s.i.isLt
  unfold blockAddr dataAddr at *
  cases hs : s.schip
  · simp [blockAdvance, hs, State.setMem, State.setI] at *
    omega
  · simp [blockAdvance, hs, State.setMem] at *
    omega

theorem add_one_add_ofNat (i : Word) (k : Nat) :
    i + 1 + BitVec.ofNat 16 k = i + BitVec.ofNat 16 (k + 1) := by
  rw [BitVec.add_assoc, Nat.add_comm k 1, BitVec.ofNat_add]
  rfl

/-- The registers' block store, whole. -/
theorem storeBlock_eq (count n : Nat) (s : State) :
    storeBlock count n s =
      let a := blockAddr n s
      let k := reached a count
      let t := (s.setMem (s.mem.writeBytes a (regsFrom s n k))).setI
        (if s.schip then s.i else s.i + BitVec.ofNat 16 k)
      if k < count then raise (.memBounds (max a 4096)) t else t := by
  induction count generalizing n s with
  | zero =>
    have : reached (blockAddr n s) 0 = 0 := by simp [reached]
    simp only [this, storeBlock, regsFrom, List.range'_zero, List.map_nil, Memory.writeBytes]
    simp [State.setMem, State.setI]
  | succ count ih =>
    rcases memWrite_cases (blockAddr n s) (s.reg (BitVec.ofNat 4 n)) s with ⟨ha, he⟩ | ⟨ha, he⟩
    · have h0 : reached (blockAddr n s) (count + 1) = 0 := by simp [reached]; omega
      rw [storeBlock, he]
      simp only [h0, regsFrom, List.range'_zero, List.map_nil, Memory.writeBytes]
      rw [if_pos (by omega), show max (blockAddr n s) 4096 = blockAddr n s by omega]
      simp [State.setMem, State.setI]
    · rw [storeBlock, he]
      simp only [ih, blockAddr_advance n s _ ha]
      have hk : reached (blockAddr n s) (count + 1) = reached (blockAddr n s + 1) count + 1 := by
        simp [reached]; omega
      have hm : max (blockAddr n s + 1) 4096 = max (blockAddr n s) 4096 := by omega
      have hi : ∀ (m : Memory) k,
          (if (blockAdvance (s.setMem m)).schip then (blockAdvance (s.setMem m)).i
            else (blockAdvance (s.setMem m)).i + BitVec.ofNat 16 k) =
          (if s.schip then s.i else s.i + BitVec.ofNat 16 (k + 1)) := by
        intro m k
        cases hs : s.schip
        · simpa [blockAdvance_i, hs] using add_one_add_ofNat s.i _
        · simp [blockAdvance_i, hs]
      simp only [hk, hm, hi, regsFrom, List.range'_succ, List.map_cons, Memory.writeBytes,
        Nat.add_lt_add_iff_right]
      have hs2 : ∀ (m m' : Memory) (j : Word),
          ((blockAdvance (s.setMem m)).setMem m').setI j = (s.setMem m').setI j := by
        intro m m' j; unfold blockAdvance; split <;> rfl
      simp only [hs2, blockAdvance_mem, State.setMem_mem, blockAdvance_reg, State.setMem_reg]

/-- The registers' block load, whole, for registers that exist. -/
theorem loadBlock_eq (count n : Nat) (s : State) (hn : n + count ≤ 16) :
    ∃ t : State,
      { t with v := s.v, i := s.i } = s ∧
      t.i = (if s.schip then s.i else s.i + BitVec.ofNat 16 (reached (blockAddr n s) count)) ∧
      (∀ y : RegIdx, t.reg y =
        if n ≤ y.toNat ∧ y.toNat < n + reached (blockAddr n s) count
        then s.mem.read (blockAddr n s + (y.toNat - n)) else s.reg y) ∧
      loadBlock count n s =
        if reached (blockAddr n s) count < count then raise (.memBounds (max (blockAddr n s) 4096)) t
        else t := by
  induction count generalizing n s with
  | zero =>
    refine ⟨s, rfl, by simp [reached], fun y => ?_, by simp [loadBlock]⟩
    rw [if_neg (by simp [reached])]
  | succ count ih =>
    rcases memRead_cases (blockAddr n s) s with ⟨ha, he⟩ | ⟨ha, he⟩
    · have h0 : reached (blockAddr n s) (count + 1) = 0 := by simp [reached]; omega
      refine ⟨s, rfl, by simp [h0], fun y => by rw [if_neg (by omega)], ?_⟩
      rw [loadBlock, he, if_pos (by omega), show max (blockAddr n s) 4096 = blockAddr n s by omega]
    · have hk : reached (blockAddr n s) (count + 1) = reached (blockAddr n s + 1) count + 1 := by
        simp [reached]; omega
      have hadv : ∀ b, blockAddr (n + 1) (blockAdvance (s.setReg (BitVec.ofNat 4 n) b)) =
          blockAddr n s + 1 := by
        intro b
        have h1 := blockAddr_advance n (s.setReg (BitVec.ofNat 4 n) b) s.mem ha
        have h2 : (s.setReg (BitVec.ofNat 4 n) b).setMem s.mem = s.setReg (BitVec.ofNat 4 n) b := rfl
        rw [h2] at h1
        exact h1
      obtain ⟨t, ht, hti, htv, hte⟩ :=
        ih (n + 1) (blockAdvance (s.setReg (BitVec.ofNat 4 n) (s.mem.read (blockAddr n s)))) (by omega)
      rw [hadv] at hti htv hte
      refine ⟨t, ?_, ?_, fun y => ?_, ?_⟩
      · have := congrArg (fun u : State => { u with v := s.v, i := s.i }) ht
        refine Eq.trans this ?_
        unfold blockAdvance
        split <;> rfl
      · rw [hti, hk]
        cases hs : s.schip
        · simpa [blockAdvance_i, hs] using add_one_add_ofNat s.i _
        · simp [blockAdvance_i, hs]
      · rw [htv, hk, blockAdvance_reg, State.reg_setReg, blockAdvance_mem, State.setReg_mem]
        have hy := y.isLt
        by_cases hyn : y.toNat = n
        · have hx : BitVec.ofNat 4 n = y := by
            apply BitVec.eq_of_toNat_eq; simp; omega
          rw [if_neg (by omega), if_pos hx, if_pos (by omega), hyn, Nat.sub_self, Nat.add_zero]
        · have hx : BitVec.ofNat 4 n ≠ y := by
            intro h; apply hyn; rw [← h]; simp; omega
          rw [if_neg hx]
          by_cases hb : n + 1 ≤ y.toNat ∧ y.toNat < n + 1 + reached (blockAddr n s + 1) count
          · rw [if_pos hb, if_pos (by omega)]
            congr 1; omega
          · rw [if_neg hb, if_neg (by omega)]
      · rw [loadBlock, he]
        simp only [hte, hk, Nat.add_lt_add_iff_right,
          show max (blockAddr n s + 1) 4096 = max (blockAddr n s) 4096 by omega]

end Sys2Proof.Machine
end

