-- ==== Sys2Proof/Laws/Decode.lean ====
section
/-! SUPPORT. The fields of a word put together from its fields (R71), for each of the layouts of R72. -/

namespace Sys2Proof

/-! Layout `A`: class and 12-bit address. -/

@[simp] theorem fieldClass_layoutA (c : BitVec 4) (a : Addr12) : fieldClass (c ++ a) = c := by
  show (c ++ a : BitVec (4 + 12)).extractLsb' 12 4 = c
  apply BitVec.eq_of_getLsbD_eq; intro j hj
  simp only [BitVec.getLsbD_extractLsb', BitVec.getLsbD_append]
  interval_cases j <;> simp

@[simp] theorem fieldAddr_layoutA (c : BitVec 4) (a : Addr12) : fieldAddr (c ++ a) = a := by
  show (c ++ a : BitVec (4 + 12)).extractLsb' 0 12 = a
  apply BitVec.eq_of_getLsbD_eq; intro j hj
  simp only [BitVec.getLsbD_extractLsb', BitVec.getLsbD_append]
  interval_cases j <;> simp

@[simp] theorem fieldX_layoutA (c : BitVec 4) (a : Addr12) : fieldX (c ++ a) = addrTopNibble a := by
  show (c ++ a : BitVec (4 + 12)).extractLsb' 8 4 = addrTopNibble a
  apply BitVec.eq_of_getLsbD_eq; intro j hj
  simp only [addrTopNibble, BitVec.getLsbD_extractLsb', BitVec.getLsbD_append]
  interval_cases j <;> simp

/-! Layouts `XK` and `XS`: class, register, low byte. -/

@[simp] theorem fieldClass_layoutXK (c : BitVec 4) (x : RegIdx) (k : Byte) :
    fieldClass (c ++ x ++ k) = c := by
  show (c ++ x ++ k : BitVec (4 + 4 + 8)).extractLsb' 12 4 = c
  apply BitVec.eq_of_getLsbD_eq; intro j hj
  simp only [BitVec.getLsbD_extractLsb', BitVec.getLsbD_append]
  interval_cases j <;> simp

@[simp] theorem fieldX_layoutXK (c : BitVec 4) (x : RegIdx) (k : Byte) : fieldX (c ++ x ++ k) = x := by
  show (c ++ x ++ k : BitVec (4 + 4 + 8)).extractLsb' 8 4 = x
  apply BitVec.eq_of_getLsbD_eq; intro j hj
  simp only [BitVec.getLsbD_extractLsb', BitVec.getLsbD_append]
  interval_cases j <;> simp

@[simp] theorem fieldK_layoutXK (c : BitVec 4) (x : RegIdx) (k : Byte) : fieldK (c ++ x ++ k) = k := by
  show (c ++ x ++ k : BitVec (4 + 4 + 8)).extractLsb' 0 8 = k
  apply BitVec.eq_of_getLsbD_eq; intro j hj
  simp only [BitVec.getLsbD_extractLsb', BitVec.getLsbD_append]
  interval_cases j <;> simp

/-! Layout `XYN`: class, two registers, low nibble. -/

@[simp] theorem fieldClass_layoutXYN (c : BitVec 4) (x y : RegIdx) (n : BitVec 4) :
    fieldClass (c ++ x ++ y ++ n) = c := by
  show (c ++ x ++ y ++ n : BitVec (4 + 4 + 4 + 4)).extractLsb' 12 4 = c
  apply BitVec.eq_of_getLsbD_eq; intro j hj
  simp only [BitVec.getLsbD_extractLsb', BitVec.getLsbD_append]
  interval_cases j <;> simp

@[simp] theorem fieldX_layoutXYN (c : BitVec 4) (x y : RegIdx) (n : BitVec 4) :
    fieldX (c ++ x ++ y ++ n) = x := by
  show (c ++ x ++ y ++ n : BitVec (4 + 4 + 4 + 4)).extractLsb' 8 4 = x
  apply BitVec.eq_of_getLsbD_eq; intro j hj
  simp only [BitVec.getLsbD_extractLsb', BitVec.getLsbD_append]
  interval_cases j <;> simp

@[simp] theorem fieldY_layoutXYN (c : BitVec 4) (x y : RegIdx) (n : BitVec 4) :
    fieldY (c ++ x ++ y ++ n) = y := by
  show (c ++ x ++ y ++ n : BitVec (4 + 4 + 4 + 4)).extractLsb' 4 4 = y
  apply BitVec.eq_of_getLsbD_eq; intro j hj
  simp only [BitVec.getLsbD_extractLsb', BitVec.getLsbD_append]
  interval_cases j <;> simp

@[simp] theorem fieldN_layoutXYN (c : BitVec 4) (x y : RegIdx) (n : BitVec 4) :
    fieldN (c ++ x ++ y ++ n) = n := by
  show (c ++ x ++ y ++ n : BitVec (4 + 4 + 4 + 4)).extractLsb' 0 4 = n
  apply BitVec.eq_of_getLsbD_eq; intro j hj
  simp only [BitVec.getLsbD_extractLsb', BitVec.getLsbD_append]
  interval_cases j <;> simp

/-! Every word is put together from its fields. -/

theorem word_eq_layoutA (w : Word) : w = fieldClass w ++ fieldAddr w := by
  refine BitVec.eq_of_getLsbD_eq (x := w) (y := (fieldClass w ++ fieldAddr w : BitVec (4 + 12))) fun j hj => ?_
  simp only [fieldClass, fieldAddr, BitVec.getLsbD_extractLsb',
    BitVec.getLsbD_append]
  interval_cases j <;> simp

theorem word_eq_layoutXK (w : Word) : w = fieldClass w ++ fieldX w ++ fieldK w := by
  refine BitVec.eq_of_getLsbD_eq (x := w) (y := (fieldClass w ++ fieldX w ++ fieldK w : BitVec (4 + 4 + 8))) fun j hj => ?_
  simp only [fieldClass, fieldX, fieldK, BitVec.getLsbD_extractLsb',
    BitVec.getLsbD_append]
  interval_cases j <;> simp

theorem word_eq_layoutXYN (w : Word) : w = fieldClass w ++ fieldX w ++ fieldY w ++ fieldN w := by
  refine BitVec.eq_of_getLsbD_eq (x := w) (y := (fieldClass w ++ fieldX w ++ fieldY w ++ fieldN w : BitVec (4 + 4 + 4 + 4))) fun j hj => ?_
  simp only [fieldClass, fieldX, fieldY, fieldN, BitVec.getLsbD_extractLsb',
    BitVec.getLsbD_append]
  interval_cases j <;> simp

/-- The word of the two bytes of a word is that word. -/
@[simp] theorem wordOfBytes_extract (w : Word) :
    wordOfBytes (w.extractLsb' 8 8) (w.extractLsb' 0 8) = w := by
  refine BitVec.eq_of_getLsbD_eq (x := (w.extractLsb' 8 8 ++ w.extractLsb' 0 8 : BitVec (8 + 8))) (y := w)
    fun j hj => ?_
  simp only [BitVec.getLsbD_extractLsb', BitVec.getLsbD_append]
  interval_cases j <;> simp

/-- What a stream of two or more bytes decodes to is what its word decodes to. -/
theorem decode_cons_cons (hi lo : Byte) (rest : List Byte) :
    decode (hi :: lo :: rest) =
      match decodeWord (wordOfBytes hi lo) with
      | .ok i => .ok (i, rest)
      | .error e => .error e := rfl

/-- The table's numbering of a 16-bit row is the word's own (R70). -/
theorem decodeTableWord_sixteen (w : Word) :
    decodeTableWord 16 w.toNat =
      match decodeWord w with
      | .ok i => some i
      | .error _ => none := by
  have hw : tableWord 16 w.toNat = w := by
    unfold tableWord
    rw [Nat.mod_eq_of_lt w.isLt]
    exact BitVec.ofNat_toNat 16 w ▸ by simp
  unfold decodeTableWord
  rw [hw, decode_cons_cons, wordOfBytes_extract]
  cases decodeWord w <;> rfl

end Sys2Proof
end

