-- ==== Sys2Proof/Laws/PerInstr.lean ====
section
/-! SUPPORT. One lemma per instruction: its encoding selects the row of the opcode map that has its mnemonic (R74). -/

namespace Sys2Proof.Laws.TableRow

/-- The word of an instruction selects, under the row's mask, the row that carries its mnemonic (R74). -/
def Statement (i : Instr) : Prop :=
  ∃ r ∈ opcodeMap, r.mnemonic = i.mnemonic ∧ (encode i &&& r.mask) = r.pattern

theorem mask_layoutA (c : BitVec 4) (a : Addr12) : (c ++ a) &&& 0xF000#16 = c ++ 0#12 := by
  have h : 0xF000#16 = 0xF#4 ++ 0#12 := by decide
  rw [h, BitVec.and_append, BitVec.and_zero, show 0xF#4 = BitVec.allOnes 4 from by decide,
    BitVec.and_allOnes]

theorem mask_layoutXK (c x : BitVec 4) (k : Byte) : (c ++ x ++ k) &&& 0xF000#16 = c ++ 0#4 ++ 0#8 := by
  have h : 0xF000#16 = 0xF#4 ++ 0#4 ++ 0#8 := by decide
  rw [h, BitVec.and_append, BitVec.and_append, BitVec.and_zero, BitVec.and_zero,
    show 0xF#4 = BitVec.allOnes 4 from by decide, BitVec.and_allOnes]

theorem mask_layoutXS (c x : BitVec 4) (k : Byte) : (c ++ x ++ k) &&& 0xF0FF#16 = c ++ 0#4 ++ k := by
  have h : 0xF0FF#16 = 0xF#4 ++ 0#4 ++ 0xFF#8 := by decide
  rw [h, BitVec.and_append, BitVec.and_append, BitVec.and_zero,
    show 0xF#4 = BitVec.allOnes 4 from by decide, BitVec.and_allOnes,
    show 0xFF#8 = BitVec.allOnes 8 from by decide, BitVec.and_allOnes]

theorem mask_layoutXY (c x y n : BitVec 4) :
    (c ++ x ++ y ++ n) &&& 0xF00F#16 = c ++ 0#4 ++ 0#4 ++ n := by
  have h : 0xF00F#16 = 0xF#4 ++ 0#4 ++ 0#4 ++ 0xF#4 := by decide
  rw [h, BitVec.and_append, BitVec.and_append, BitVec.and_append, BitVec.and_zero, BitVec.and_zero,
    show 0xF#4 = BitVec.allOnes 4 from by decide, BitVec.and_allOnes, BitVec.and_allOnes]

theorem mask_layoutXYN (c x y n : BitVec 4) :
    (c ++ x ++ y ++ n) &&& 0xF000#16 = c ++ 0#4 ++ 0#4 ++ 0#4 := by
  have h : 0xF000#16 = 0xF#4 ++ 0#4 ++ 0#4 ++ 0#4 := by decide
  rw [h, BitVec.and_append, BitVec.and_append, BitVec.and_append, BitVec.and_zero, BitVec.and_zero,
    BitVec.and_zero, show 0xF#4 = BitVec.allOnes 4 from by decide, BitVec.and_allOnes]

theorem cls : Statement .cls := ⟨⟨"CLS", 0x00E0#16, 0xFFFF#16⟩, by decide, rfl, by decide⟩
theorem ret : Statement .ret := ⟨⟨"RET", 0x00EE#16, 0xFFFF#16⟩, by decide, rfl, by decide⟩
theorem jp (a : Addr12) : Statement (.jp a) :=
  ⟨⟨"JP_ADDR", 0x1000#16, 0xF000#16⟩, by decide, rfl, (mask_layoutA _ _ ).trans (by decide)⟩
theorem call (a : Addr12) : Statement (.call a) :=
  ⟨⟨"CALL_ADDR", 0x2000#16, 0xF000#16⟩, by decide, rfl, (mask_layoutA _ _ ).trans (by decide)⟩
theorem seK (x : RegIdx) (k : Byte) : Statement (.seK x k) :=
  ⟨⟨"SE_Vx_K", 0x3000#16, 0xF000#16⟩, by decide, rfl, (mask_layoutXK _ _ _ ).trans (by decide)⟩
theorem sneK (x : RegIdx) (k : Byte) : Statement (.sneK x k) :=
  ⟨⟨"SNE_Vx_K", 0x4000#16, 0xF000#16⟩, by decide, rfl, (mask_layoutXK _ _ _ ).trans (by decide)⟩
theorem seReg (x y : RegIdx) : Statement (.seReg x y) :=
  ⟨⟨"SE_Vx_Vy", 0x5000#16, 0xF00F#16⟩, by decide, rfl, (mask_layoutXY _ _ _ _ ).trans (by decide)⟩
theorem ldK (x : RegIdx) (k : Byte) : Statement (.ldK x k) :=
  ⟨⟨"LD_Vx_K", 0x6000#16, 0xF000#16⟩, by decide, rfl, (mask_layoutXK _ _ _ ).trans (by decide)⟩
theorem addK (x : RegIdx) (k : Byte) : Statement (.addK x k) :=
  ⟨⟨"ADD_Vx_K", 0x7000#16, 0xF000#16⟩, by decide, rfl, (mask_layoutXK _ _ _ ).trans (by decide)⟩
theorem ldReg (x y : RegIdx) : Statement (.ldReg x y) :=
  ⟨⟨"LD_Vx_Vy", 0x8000#16, 0xF00F#16⟩, by decide, rfl, (mask_layoutXY _ _ _ _ ).trans (by decide)⟩
theorem orReg (x y : RegIdx) : Statement (.orReg x y) :=
  ⟨⟨"OR_Vx_Vy", 0x8001#16, 0xF00F#16⟩, by decide, rfl, (mask_layoutXY _ _ _ _ ).trans (by decide)⟩
theorem andReg (x y : RegIdx) : Statement (.andReg x y) :=
  ⟨⟨"AND_Vx_Vy", 0x8002#16, 0xF00F#16⟩, by decide, rfl, (mask_layoutXY _ _ _ _ ).trans (by decide)⟩
theorem xorReg (x y : RegIdx) : Statement (.xorReg x y) :=
  ⟨⟨"XOR_Vx_Vy", 0x8003#16, 0xF00F#16⟩, by decide, rfl, (mask_layoutXY _ _ _ _ ).trans (by decide)⟩
theorem addReg (x y : RegIdx) : Statement (.addReg x y) :=
  ⟨⟨"ADD_Vx_Vy", 0x8004#16, 0xF00F#16⟩, by decide, rfl, (mask_layoutXY _ _ _ _ ).trans (by decide)⟩
theorem subReg (x y : RegIdx) : Statement (.subReg x y) :=
  ⟨⟨"SUB_Vx_Vy", 0x8005#16, 0xF00F#16⟩, by decide, rfl, (mask_layoutXY _ _ _ _ ).trans (by decide)⟩
theorem shrReg (x y : RegIdx) : Statement (.shrReg x y) :=
  ⟨⟨"SHR_Vx_Vy", 0x8006#16, 0xF00F#16⟩, by decide, rfl, (mask_layoutXY _ _ _ _ ).trans (by decide)⟩
theorem subnReg (x y : RegIdx) : Statement (.subnReg x y) :=
  ⟨⟨"SUBN_Vx_Vy", 0x8007#16, 0xF00F#16⟩, by decide, rfl, (mask_layoutXY _ _ _ _ ).trans (by decide)⟩
theorem shlReg (x y : RegIdx) : Statement (.shlReg x y) :=
  ⟨⟨"SHL_Vx_Vy", 0x800E#16, 0xF00F#16⟩, by decide, rfl, (mask_layoutXY _ _ _ _ ).trans (by decide)⟩
theorem sneReg (x y : RegIdx) : Statement (.sneReg x y) :=
  ⟨⟨"SNE_Vx_Vy", 0x9000#16, 0xF00F#16⟩, by decide, rfl, (mask_layoutXY _ _ _ _ ).trans (by decide)⟩
theorem ldI (a : Addr12) : Statement (.ldI a) :=
  ⟨⟨"LD_I_ADDR", 0xA000#16, 0xF000#16⟩, by decide, rfl, (mask_layoutA _ _ ).trans (by decide)⟩
theorem jpV0 (x : RegIdx) (a : Addr12) : Statement (.jpV0 x a) :=
  ⟨⟨"JP_V0_ADDR", 0xB000#16, 0xF000#16⟩, by decide, rfl, (mask_layoutA _ _ ).trans (by decide)⟩
theorem rnd (x : RegIdx) (k : Byte) : Statement (.rnd x k) :=
  ⟨⟨"RND_Vx_K", 0xC000#16, 0xF000#16⟩, by decide, rfl, (mask_layoutXK _ _ _ ).trans (by decide)⟩
theorem drw (x y : RegIdx) (n : BitVec 4) : Statement (.drw x y n) :=
  ⟨⟨"DRW_Vx_Vy_N", 0xD000#16, 0xF000#16⟩, by decide, rfl, (mask_layoutXYN _ _ _ _ ).trans (by decide)⟩
theorem skp (x : RegIdx) : Statement (.skp x) :=
  ⟨⟨"SKP_Vx", 0xE09E#16, 0xF0FF#16⟩, by decide, rfl, (mask_layoutXS _ _ _ ).trans (by decide)⟩
theorem sknp (x : RegIdx) : Statement (.sknp x) :=
  ⟨⟨"SKNP_Vx", 0xE0A1#16, 0xF0FF#16⟩, by decide, rfl, (mask_layoutXS _ _ _ ).trans (by decide)⟩
theorem ldVxDt (x : RegIdx) : Statement (.ldVxDt x) :=
  ⟨⟨"LD_Vx_DT", 0xF007#16, 0xF0FF#16⟩, by decide, rfl, (mask_layoutXS _ _ _ ).trans (by decide)⟩
theorem ldVxKey (x : RegIdx) : Statement (.ldVxKey x) :=
  ⟨⟨"LD_Vx_KEY", 0xF00A#16, 0xF0FF#16⟩, by decide, rfl, (mask_layoutXS _ _ _ ).trans (by decide)⟩
theorem ldDtVx (x : RegIdx) : Statement (.ldDtVx x) :=
  ⟨⟨"LD_DT_Vx", 0xF015#16, 0xF0FF#16⟩, by decide, rfl, (mask_layoutXS _ _ _ ).trans (by decide)⟩
theorem ldStVx (x : RegIdx) : Statement (.ldStVx x) :=
  ⟨⟨"LD_ST_Vx", 0xF018#16, 0xF0FF#16⟩, by decide, rfl, (mask_layoutXS _ _ _ ).trans (by decide)⟩
theorem addI (x : RegIdx) : Statement (.addI x) :=
  ⟨⟨"ADD_I_Vx", 0xF01E#16, 0xF0FF#16⟩, by decide, rfl, (mask_layoutXS _ _ _ ).trans (by decide)⟩
theorem ldF (x : RegIdx) : Statement (.ldF x) :=
  ⟨⟨"LD_F_Vx", 0xF029#16, 0xF0FF#16⟩, by decide, rfl, (mask_layoutXS _ _ _ ).trans (by decide)⟩
theorem ldB (x : RegIdx) : Statement (.ldB x) :=
  ⟨⟨"LD_B_Vx", 0xF033#16, 0xF0FF#16⟩, by decide, rfl, (mask_layoutXS _ _ _ ).trans (by decide)⟩
theorem storeRegs (x : RegIdx) : Statement (.storeRegs x) :=
  ⟨⟨"LD__I__Vx", 0xF055#16, 0xF0FF#16⟩, by decide, rfl, (mask_layoutXS _ _ _ ).trans (by decide)⟩
theorem loadRegs (x : RegIdx) : Statement (.loadRegs x) :=
  ⟨⟨"LD_Vx__I", 0xF065#16, 0xF0FF#16⟩, by decide, rfl, (mask_layoutXS _ _ _ ).trans (by decide)⟩

end Sys2Proof.Laws.TableRow
end

