-- ==== Sys2Proof/Laws/Step.lean ====
section
/-! SUPPORT. Everything one step can do, once: the three shapes of a cycle, the three ends of fetch and execute, and the
interval timers (spec/45_step_cycle.md R200 to R209). -/

namespace Sys2Proof.Machine

/-- Every instruction answers a next state: a fault of the spec is one (spec/60_exceptions.md R248). -/
theorem exec_isNext (i : Instr) (s : State) : ∃ t, exec i s = .next t := by
  cases i <;> exact ⟨_, rfl⟩

theorem mapNext_eq_next {f : State → State} {o : Host.Outcome State Fault Refusal} {t : State} :
    mapNext f o = .next t ↔ ∃ u, o = .next u ∧ t = f u := by
  cases o with
  | next u => simp [mapNext, eq_comm]
  | fault r => simp [mapNext]
  | refused r => simp [mapNext]

theorem executeFetched_isNext (s : State) : ∃ t, executeFetched s = .next t := by
  unfold executeFetched
  split
  · exact ⟨_, rfl⟩
  · exact exec_isNext _ _

/-- The three ends of fetch and execute: a fetch fault, an illegal word, a decoded instruction (R203, R204). -/
theorem fetchExecute_cases (s : State) :
    (s.pc.toNat > 0xFFE ∧
        fetchExecute s = .next (raise (.memBounds (max s.pc.toNat 4096)) (s.setFetched 0 s.pc))) ∨
      (s.pc.toNat ≤ 0xFFE ∧ ∃ e, decodeWord s.nextWord = .error e ∧
        fetchExecute s = .next (raise .decodeFault ((s.setFetched s.nextWord s.pc).setPc (s.pc + 2)))) ∨
      (s.pc.toNat ≤ 0xFFE ∧ ∃ i, decodeWord s.nextWord = .ok i ∧
        fetchExecute s = exec i ((s.setFetched s.nextWord s.pc).setPc (s.pc + 2))) := by
  unfold fetchExecute
  rcases fetch_cases s with ⟨h, e⟩ | ⟨h, e⟩ | ⟨h, e⟩
  · exact .inl ⟨by omega, by rw [e, show max s.pc.toNat 4096 = s.pc.toNat by omega]⟩
  · exact .inl ⟨by omega, by rw [e, show max s.pc.toNat 4096 = 0x1000 by omega]⟩
  · rw [e]
    refine .inr ?_
    cases hd : decodeWord s.nextWord with
    | error x => exact .inl ⟨h, x, rfl, by
        simp only [executeFetched, State.setPc_fetchWord, State.setFetched_fetchWord]
        rw [show wordOfBytes (s.mem.read s.pc.toNat) (s.mem.read (s.pc.toNat + 1)) = s.nextWord from rfl, hd]⟩
    | ok i => exact .inr ⟨h, i, rfl, by
        simp only [executeFetched, State.setPc_fetchWord, State.setFetched_fetchWord]
        rw [show wordOfBytes (s.mem.read s.pc.toNat) (s.mem.read (s.pc.toNat + 1)) = s.nextWord from rfl, hd]⟩

theorem fetchExecute_isNext (s : State) : ∃ t, fetchExecute s = .next t := by
  rcases fetchExecute_cases s with ⟨_, e⟩ | ⟨_, _, _, e⟩ | ⟨_, _, _, e⟩
  · exact ⟨_, e⟩
  · exact ⟨_, e⟩
  · rw [e]; exact exec_isNext _ _

/-- The three shapes of a step: halted, executing, idle (R202, R208, R209). -/
theorem cycle_cases (e : Rat) (s : State) :
    (s.fault.isSome ∧ cycle e s = .next (s.setOutputs false false)) ∨
      (s.fault = none ∧ doExec e s = true ∧ ∃ u, fetchExecute (beginStep e s) = .next u ∧
        cycle e s = .next (finishStep (doTick e s) (sweepAfter u))) ∨
      (s.fault = none ∧ doExec e s = false ∧
        cycle e s = .next (finishStep (doTick e s) (beginStep e s))) := by
  unfold cycle
  cases hf : s.fault with
  | some r => exact .inl ⟨rfl, rfl⟩
  | none =>
    refine .inr ?_
    cases hd : doExec e s with
    | false => exact .inr ⟨rfl, rfl, rfl⟩
    | true =>
      obtain ⟨u, hu⟩ := fetchExecute_isNext (beginStep e s)
      exact .inl ⟨rfl, rfl, u, hu, by rw [hu]; rfl⟩

/-- A step always answers a next state. -/
theorem cycle_isNext (e : Rat) (s : State) : ∃ t, cycle e s = .next t := by
  rcases cycle_cases e s with ⟨_, h⟩ | ⟨_, _, _, _, h⟩ | ⟨_, _, h⟩ <;> exact ⟨_, h⟩

/-- The end of a step, on a fault (R209). -/
theorem finishStep_of_fault {b : Bool} {s : State} (h : s.fault.isSome) :
    finishStep b s = s.setOutputs false false := if_pos h

/-- The end of a step, without a fault (R206, R207). -/
theorem finishStep_of_none (b : Bool) {s : State} (h : s.fault = none) :
    finishStep b s =
      if b then (tickDown s).setOutputs s.drew (shouldBeep (tickDown s))
      else s.setOutputs s.drew (shouldBeep s) := by
  unfold finishStep
  rw [if_neg (by simp [h])]
  cases b <;> rfl

/-- What the end of a step leaves: `DT`, `ST` and the outputs aside, the state as it was. -/
theorem finishStep_frame (b : Bool) (s : State) :
    { finishStep b s with dt := s.dt, st := s.st, drew := s.drew, beep := s.beep } = s := by
  unfold finishStep
  split
  · rfl
  · cases b <;> rfl

/-- The count-down is a subtraction with floor (R206). -/
theorem countDown_toNat (b : Byte) : (countDown b).toNat = b.toNat - 1 := by
  revert b; decide

/-- An accumulator after a step: below the period, and the total less whole periods (R201). -/
theorem timerRemainder_spec {acc elapsed period : Rat} (hp : 0 < period) :
    0 ≤ timerRemainder acc elapsed period ∧ timerRemainder acc elapsed period < period ∧
      ∃ k : Int, acc + elapsed = k * period + timerRemainder acc elapsed period := by
  unfold timerRemainder
  set q := (acc + elapsed) / period with hq
  have hfl : (q.floor : Rat) = (⌊q⌋ : Int) := rfl
  have h1 : ((⌊q⌋ : Int) : Rat) ≤ q := Int.floor_le q
  have h2 : q < (⌊q⌋ : Int) + 1 := Int.lt_floor_add_one q
  have h3 : period * q = acc + elapsed := by rw [hq]; field_simp
  have h4 : period * ((⌊q⌋ : Int) : Rat) ≤ period * q := mul_le_mul_of_nonneg_left h1 hp.le
  have h5 : period * q < period * ((⌊q⌋ : Int) + 1) := mul_lt_mul_of_pos_left h2 hp
  rw [hfl]
  refine ⟨by linarith, by linarith, ⌊q⌋, by ring⟩

end Sys2Proof.Machine
end

