-- ==== Sys2Proof/Tests/Slice0.lean ====
section
/-! SUPPORT. Tests. Every expected value is from spec/95_test_vectors.md or the encoding column of spec/30_encoding.md R74,
not from a run of the model. The last part shows, for each statement of Certificates/Slice0/Obligations.lean that has
hypotheses, a state and operands that meet them. -/

namespace Sys2Proof.Tests

open Sys2Proof.Machine

/-! ## Well-formedness: the one check refuses an ill-formed term -/

theorem test_wellFormed_jpV0 : (Instr.jpV0 3 0x2FF#12).wellFormed = false := by decide

theorem test_wellFormed_jpV0_agrees : (Instr.jpV0 2 0x2FF#12).wellFormed = true := by decide

/-! ## Decoding: words written out bit by bit from R74 -/

theorem test_decode_cls : decodeWord 0b0000000011100000#16 = .ok .cls := by decide
theorem test_decode_ret : decodeWord 0b0000000011101110#16 = .ok .ret := by decide
theorem test_decode_jp : decodeWord 0b0001001000000000#16 = .ok (.jp 0x200#12) := by decide
theorem test_decode_call : decodeWord 0b0010001000010000#16 = .ok (.call 0x210#12) := by decide
theorem test_decode_seK : decodeWord 0b0011010101111111#16 = .ok (.seK 5 0x7F) := by decide
theorem test_decode_sneK : decodeWord 0b0100010110000000#16 = .ok (.sneK 5 0x80) := by decide
theorem test_decode_seReg : decodeWord 0b0101000100100000#16 = .ok (.seReg 1 2) := by decide
theorem test_decode_ldK : decodeWord 0b0110101000101100#16 = .ok (.ldK 0xA 0x2C) := by decide
theorem test_decode_addK : decodeWord 0b0111000000000010#16 = .ok (.addK 0 2) := by decide
theorem test_decode_ldReg : decodeWord 0b1000000100100000#16 = .ok (.ldReg 1 2) := by decide
theorem test_decode_orReg : decodeWord 0b1000000100100001#16 = .ok (.orReg 1 2) := by decide
theorem test_decode_andReg : decodeWord 0b1000000100100010#16 = .ok (.andReg 1 2) := by decide
theorem test_decode_xorReg : decodeWord 0b1000000100100011#16 = .ok (.xorReg 1 2) := by decide
theorem test_decode_addReg : decodeWord 0b1000000100100100#16 = .ok (.addReg 1 2) := by decide
theorem test_decode_subReg : decodeWord 0b1000000100100101#16 = .ok (.subReg 1 2) := by decide
theorem test_decode_shrReg : decodeWord 0b1000000100100110#16 = .ok (.shrReg 1 2) := by decide
theorem test_decode_subnReg : decodeWord 0b1000000100100111#16 = .ok (.subnReg 1 2) := by decide
theorem test_decode_shlReg : decodeWord 0b1000000100101110#16 = .ok (.shlReg 1 2) := by decide
theorem test_decode_sneReg : decodeWord 0b1001000100100000#16 = .ok (.sneReg 1 2) := by decide
theorem test_decode_ldI : decodeWord 0b1010001011110000#16 = .ok (.ldI 0x2F0#12) := by decide
theorem test_decode_jpV0 : decodeWord 0b1011001111111111#16 = .ok (.jpV0 3 0x3FF#12) := by decide
theorem test_decode_rnd : decodeWord 0b1100000100001111#16 = .ok (.rnd 1 0x0F) := by decide
theorem test_decode_drw : decodeWord 0b1101000100100010#16 = .ok (.drw 1 2 2) := by decide
theorem test_decode_skp : decodeWord 0b1110001110011110#16 = .ok (.skp 3) := by decide
theorem test_decode_sknp : decodeWord 0b1110001110100001#16 = .ok (.sknp 3) := by decide
theorem test_decode_ldVxDt : decodeWord 0b1111010000000111#16 = .ok (.ldVxDt 4) := by decide
theorem test_decode_ldVxKey : decodeWord 0b1111001100001010#16 = .ok (.ldVxKey 3) := by decide
theorem test_decode_ldDtVx : decodeWord 0b1111001100010101#16 = .ok (.ldDtVx 3) := by decide
theorem test_decode_ldStVx : decodeWord 0b1111001100011000#16 = .ok (.ldStVx 3) := by decide
theorem test_decode_addI : decodeWord 0b1111001000011110#16 = .ok (.addI 2) := by decide
theorem test_decode_ldF : decodeWord 0b1111000000101001#16 = .ok (.ldF 0) := by decide
theorem test_decode_ldB : decodeWord 0b1111000000110011#16 = .ok (.ldB 0) := by decide
theorem test_decode_storeRegs : decodeWord 0b1111001001010101#16 = .ok (.storeRegs 2) := by decide
theorem test_decode_loadRegs : decodeWord 0b1111001001100101#16 = .ok (.loadRegs 2) := by decide

/-- The illegal words of spec/95_test_vectors.md part 2.1. -/
theorem test_decode_illegal :
    [0x0000#16, 0x00E1#16, 0x01E0#16, 0x00FD#16, 0x5121#16, 0x8128#16, 0x812D#16, 0x812F#16, 0x9121#16, 0xE19F#16,
      0xE100#16, 0xF130#16, 0xF175#16, 0xF185#16, 0xF100#16, 0xF1FF#16].all
      (fun w => match decodeWord w with | .ok _ => false | .error _ => true) = true := by decide

/-- The most significant byte comes first (R70). -/
theorem test_decode_byte_order : decode [0x12#8, 0x00#8, 0xAB#8] = .ok (.jp 0x200#12, [0xAB#8]) := by decide

theorem test_decode_truncated : decode [0x12#8] = .error .truncated := by decide

theorem test_decodeTableWord : decodeTableWord 16 0x812E = some (.shlReg 1 2) := by decide

theorem test_encode_bytes : encodeBytes (.shlReg 1 2) = [0x81#8, 0x2E#8] := by decide

/-! ## One instruction, one step

`base` is the reset state with the word at 0x200 just fetched: `PC` is 0x202, as in part 2 of spec/95_test_vectors.md. -/

/-- The state in which part 2 of spec/95_test_vectors.md runs an instruction. -/
def base (schip : Bool) : State := (({ State.reset with schip := schip }).setFetched 0xABCD#16 0x200#16).setPc 0x202#16

/-- The state an instruction answers. -/
def after (i : Instr) (s : State) : State :=
  match exec i s with
  | .next t => t
  | .fault _ => s
  | .refused _ => s

/-- The state with some of its registers set. -/
def regs (l : List (RegIdx × Byte)) (s : State) : State := l.foldl (fun t p => t.setReg p.1 p.2) s

/-- The state with some bytes of memory set. -/
def bytes (a : Nat) (l : List Byte) (s : State) : State := s.setMem (s.mem.writeBytes a l)

/-- A faulting instruction's record. -/
def record (c : FaultCause) : Option FaultRecord := some ⟨c, 0xABCD#16, 0x200#16⟩

/-- `STACK[0] = 0x206, STACK[1] = 0x30A, SP = 2`. -/
def called : State :=
  ((base false).setStack ⟨#[0x206#16, 0x30A#16, 0, 0, 0, 0, 0, 0, 0, 0, 0, 0, 0, 0, 0, 0], rfl⟩).setSp 2

theorem test_ret_pops : (after .ret called).pc = 0x30A#16 ∧ (after .ret called).sp = 1 := by decide

theorem test_ret_underflow : (after .ret (base false)).fault = record .stackUnderflow := by decide

theorem test_jp_odd : (after (.jp 0x201) (base false)).pc = 0x201#16 := by decide

theorem test_call_last_slot :
    (after (.call 0x300) ((base false).setSp 15)).stack[15] = 0x202#16 ∧
      (after (.call 0x300) ((base false).setSp 15)).pc = 0x300#16 := by decide

theorem test_call_overflow :
    (after (.call 0x300) ((base false).setSp 16)).fault = record .stackOverflow ∧
      (after (.call 0x300) ((base false).setSp 16)).pc = 0x202#16 := by decide

theorem test_seK : (after (.seK 5 0x7F) (regs [(5, 0x7F)] (base false))).pc = 0x204#16 ∧
    (after (.seK 5 0x80) (regs [(5, 0x7F)] (base false))).pc = 0x202#16 := by decide

theorem test_sneK : (after (.sneK 5 0x7F) (regs [(5, 0x7F)] (base false))).pc = 0x202#16 ∧
    (after (.sneK 5 0x80) (regs [(5, 0x7F)] (base false))).pc = 0x204#16 := by decide

theorem test_seReg : (after (.seReg 1 2) (regs [(1, 3), (2, 3)] (base false))).pc = 0x204#16 ∧
    (after (.seReg 1 2) (regs [(1, 3), (2, 4)] (base false))).pc = 0x202#16 := by decide

theorem test_sneReg : (after (.sneReg 1 2) (regs [(1, 3), (2, 4)] (base false))).pc = 0x204#16 ∧
    (after (.sneReg 1 1) (base false)).pc = 0x202#16 := by decide

theorem test_jpV0_modes :
    (after (.jpV0 2 0x250) (regs [(0, 4), (2, 0x10)] (base false))).pc = 0x254#16 ∧
      (after (.jpV0 2 0x250) (regs [(0, 4), (2, 0x10)] (base true))).pc = 0x260#16 := by decide

theorem test_jpV0_unmasked : (after (.jpV0 0xF 0xFFF) (regs [(0, 0xFF)] (base false))).pc = 0x10FE#16 := by decide

theorem test_ldK_vf : (after (.ldK 0xF 0xAB) (base false)).reg vf = 0xAB := by decide

theorem test_addK_wraps : (after (.addK 0 2) (regs [(0, 0xFF), (0xF, 9)] (base false))).reg 0 = 1 ∧
    (after (.addK 0 2) (regs [(0, 0xFF), (0xF, 9)] (base false))).reg vf = 9 := by decide

theorem test_ldReg : (after (.ldReg 1 2) (regs [(2, 0x7E), (0xF, 9)] (base false))).reg 1 = 0x7E ∧
    (after (.ldReg 1 2) (regs [(2, 0x7E), (0xF, 9)] (base false))).reg vf = 9 := by decide

theorem test_orReg_legacy : (after (.orReg 1 0xF) (regs [(1, 0x0F), (0xF, 0xF0)] (base false))).reg 1 = 0xFF ∧
    (after (.orReg 1 0xF) (regs [(1, 0x0F), (0xF, 0xF0)] (base false))).reg vf = 0 := by decide

theorem test_orReg_schip : (after (.orReg 0xF 1) (regs [(0xF, 0x0F), (1, 0xF0)] (base true))).reg vf = 0xFF := by decide

theorem test_andReg_legacy : (after (.andReg 1 2) (regs [(1, 0x3C), (2, 0x0F), (0xF, 1)] (base false))).reg 1 = 0x0C ∧
    (after (.andReg 1 2) (regs [(1, 0x3C), (2, 0x0F), (0xF, 1)] (base false))).reg vf = 0 := by decide

theorem test_andReg_schip :
    (after (.andReg 1 2) (regs [(1, 0x3C), (2, 0x0F), (0xF, 1)] (base true))).reg vf = 1 := by decide

theorem test_xorReg_legacy : (after (.xorReg 1 1) (regs [(1, 0x5A), (0xF, 1)] (base false))).reg 1 = 0 ∧
    (after (.xorReg 1 1) (regs [(1, 0x5A), (0xF, 1)] (base false))).reg vf = 0 := by decide

theorem test_xorReg_schip : (after (.xorReg 1 2) (regs [(1, 0xFF), (2, 0x0F), (0xF, 1)] (base true))).reg 1 = 0xF0 ∧
    (after (.xorReg 1 2) (regs [(1, 0xFF), (2, 0x0F), (0xF, 1)] (base true))).reg vf = 1 := by decide

theorem test_addReg_carry : (after (.addReg 1 2) (regs [(1, 0xFF), (2, 1)] (base false))).reg 1 = 0 ∧
    (after (.addReg 1 2) (regs [(1, 0xFF), (2, 1)] (base false))).reg vf = 1 := by decide

theorem test_addReg_flag_over_result : (after (.addReg 0xF 1) (regs [(0xF, 1), (1, 1)] (base false))).reg vf = 0 := by decide

theorem test_subReg_borrow : (after (.subReg 1 2) (regs [(1, 3), (2, 5)] (base false))).reg 1 = 0xFE ∧
    (after (.subReg 1 2) (regs [(1, 3), (2, 5)] (base false))).reg vf = 0 := by decide

theorem test_subReg_equal : (after (.subReg 1 2) (regs [(1, 7), (2, 7)] (base false))).reg 1 = 0 ∧
    (after (.subReg 1 2) (regs [(1, 7), (2, 7)] (base false))).reg vf = 1 := by decide

theorem test_shrReg_legacy : (after (.shrReg 1 2) (regs [(1, 0xAA), (2, 3)] (base false))).reg 1 = 1 ∧
    (after (.shrReg 1 2) (regs [(1, 0xAA), (2, 3)] (base false))).reg vf = 1 := by decide

theorem test_shrReg_schip : (after (.shrReg 1 2) (regs [(1, 0xAA), (2, 3)] (base true))).reg 1 = 0x55 ∧
    (after (.shrReg 1 2) (regs [(1, 0xAA), (2, 3)] (base true))).reg vf = 0 := by decide

theorem test_subnReg : (after (.subnReg 1 2) (regs [(1, 3), (2, 5)] (base false))).reg 1 = 2 ∧
    (after (.subnReg 1 2) (regs [(1, 3), (2, 5)] (base false))).reg vf = 1 := by decide

theorem test_subnReg_borrow : (after (.subnReg 1 2) (regs [(1, 5), (2, 3)] (base false))).reg 1 = 0xFE ∧
    (after (.subnReg 1 2) (regs [(1, 5), (2, 3)] (base false))).reg vf = 0 := by decide

theorem test_shlReg_legacy : (after (.shlReg 1 2) (regs [(2, 0xC0)] (base false))).reg 1 = 0x80 ∧
    (after (.shlReg 1 2) (regs [(2, 0xC0)] (base false))).reg vf = 1 := by decide

theorem test_shlReg_schip : (after (.shlReg 1 2) (regs [(1, 0x7F)] (base true))).reg 1 = 0xFE ∧
    (after (.shlReg 1 2) (regs [(1, 0x7F)] (base true))).reg vf = 0 := by decide

/-- Any draw under the mask 0 is 0. -/
theorem test_rnd_mask_zero : (after (.rnd 1 0) (regs [(1, 0xAA)] (base false))).reg 1 = 0 := by
  show (State.setReg _ 1 (_ &&& 0#8)).reg 1 = 0
  simp

theorem test_rnd_draws_once : (after (.rnd 1 0xFF) (base false)).draws = 1 := by decide

theorem test_cls : (after .cls ((base false).setDisp (Display.set Display.blank 63 31 100#8))).cell 63 31 = 0 := by decide

/-- `V1 = 62`, row 0xFF: columns past the edge toggle the last column seven times; a collision is reported. -/
theorem test_drw_right_edge :
    let t := after (.drw 1 2 1) (bytes 0x300 [0xFF] (((regs [(1, 62)] (base false))).setI 0x300#16))
    t.cell 62 0 = 255#8 ∧ t.cell 63 0 = 255#8 ∧ t.reg vf = 1 := by decide +kernel

/-- `I = 0xFFE`, four rows from display row 29: two rows are drawn and the third read faults. -/
theorem test_drw_memory_end :
    let t := after (.drw 1 2 4) (bytes 0xFFE [0xFF, 0xFF] ((regs [(2, 29)] (base false)).setI 0xFFE#16))
    t.fault = record (.memBounds 0x1000) ∧ t.cell 7 30 = 255#8 ∧ t.cell 0 31 = 0 ∧ t.reg vf = 0 := by decide

theorem test_skp : (after (.skp 3) ((regs [(3, 0x0A)] (base false)).setKey 0xA .pressed)).pc = 0x204#16 ∧
    (after (.skp 3) ((regs [(3, 0x0A)] (base false)).setKey 0xA .justReleased)).pc = 0x202#16 := by decide

theorem test_skp_key_index : (after (.skp 3) (regs [(3, 0x10)] (base false))).fault = record (.keyIndex 0x10) := by decide

theorem test_sknp : (after (.sknp 3) ((regs [(3, 0x0A)] (base false)).setKey 0xA .pressed)).pc = 0x202#16 ∧
    (after (.sknp 3) ((regs [(3, 0x0A)] (base false)).setKey 0xA .justReleased)).pc = 0x204#16 := by decide

theorem test_sknp_key_index : (after (.sknp 3) (regs [(3, 0xFF)] (base false))).fault = record (.keyIndex 0xFF) := by decide

theorem test_ldVxKey_lowest :
    let t := after (.ldVxKey 7) (((base false).setKey 9 .justReleased).setKey 3 .justReleased)
    t.reg 7 = 3 ∧ t.keyAt 3 = .released ∧ t.keyAt 9 = .justReleased ∧ t.pc = 0x202#16 := by decide

theorem test_ldVxKey_press_waits : (after (.ldVxKey 3) ((base false).setKey 5 .pressed)).pc = 0x200#16 := by decide

theorem test_ldVxDt : (after (.ldVxDt 4) ((base false).setDt 0x2A)).reg 4 = 0x2A := by decide

theorem test_ldDtVx : (after (.ldDtVx 3) (regs [(3, 0xFF)] (base false))).dt = 0xFF := by decide

theorem test_ldStVx : (after (.ldStVx 3) (regs [(3, 0x10)] (base false))).st = 0x10 := by decide

theorem test_ldI : (after (.ldI 0xFFF) (base false)).i = 0x0FFF#16 := by decide

theorem test_addI_old_vf : (after (.addI 0xF) ((regs [(0xF, 1)] (base false)).setI 0x0FFF#16)).i = 0x1000#16 ∧
    (after (.addI 0xF) ((regs [(0xF, 1)] (base false)).setI 0x0FFF#16)).reg vf = 1 := by decide

theorem test_addI_overflow : (after (.addI 0) ((regs [(0, 1)] (base false)).setI 0xFFFF#16)).fault =
    record (.indexOverflow 0x10000) := by decide

/-- `V0 = 0xF3`: the glyph of 3, wherever the font is. -/
theorem test_ldF_low_nibble :
    (after (.ldF 0) (regs [(0, 0xF3)] (base false))).i = BitVec.ofNat 16 (Config.fontBase.val + 15) := by rfl

theorem test_ldB_one_digit :
    let t := after (.ldB 0) (bytes 0x300 [0xAA, 0xBB, 0xCC] ((regs [(0, 9)] (base false)).setI 0x300#16))
    t.mem.read 0x300 = 9 ∧ t.mem.read 0x301 = 0xBB ∧ t.mem.read 0x302 = 0xCC := by decide

theorem test_ldB_memory_end :
    let t := after (.ldB 0) ((regs [(0, 255)] (base false)).setI 0xFFE#16)
    t.mem.read 0xFFE = 2 ∧ t.mem.read 0xFFF = 5 ∧ t.fault = record (.memBounds 0x1000) := by decide

theorem test_storeRegs_legacy_end :
    let t := after (.storeRegs 1) ((regs [(0, 0xAA), (1, 0xBB)] (base false)).setI 0xFFF#16)
    t.mem.read 0xFFF = 0xAA ∧ t.i = 0x1000#16 ∧ t.fault = record (.memBounds 0x1000) := by decide

theorem test_storeRegs_schip :
    let t := after (.storeRegs 2) ((regs [(0, 0x11), (1, 0x22), (2, 0x33)] (base true)).setI 0x300#16)
    t.mem.read 0x300 = 0x11 ∧ t.mem.read 0x302 = 0x33 ∧ t.i = 0x300#16 := by decide

theorem test_loadRegs_legacy :
    let t := after (.loadRegs 2) (bytes 0x300 [2, 5, 4] ((regs [(3, 7)] (base false)).setI 0x300#16))
    t.reg 0 = 2 ∧ t.reg 2 = 4 ∧ t.reg 3 = 7 ∧ t.i = 0x303#16 := by decide

theorem test_loadRegs_end :
    let t := after (.loadRegs 1) (bytes 0xFFF [0x77] ((regs [(1, 9)] (base true)).setI 0xFFF#16))
    t.reg 0 = 0x77 ∧ t.reg 1 = 9 ∧ t.i = 0xFFF#16 ∧ t.fault = record (.memBounds 0x1000) := by decide

/-! ## Steps and transactions: part 2.7 of spec/95_test_vectors.md

`looping` holds the word 1200 (`JP 0x200`) at 0x200, with `DT` and `ST` at 2. -/

/-- The memory of part 2.7. -/
def looping (r : RunState) : State := (((bytes 0x200 [0x12, 0x00] State.reset).setDt 2).setSt 2).setRun r

/-- The state a step answers. -/
def stepped (e : Rat) (s : State) : State :=
  match cycle e s with
  | .next t => t
  | .fault _ => s
  | .refused _ => s

/-- The state a transaction answers. -/
def acted (a : Transaction) (s : State) : State :=
  match transact a s with
  | .next t => t
  | .fault _ => s
  | .refused _ => s

theorem test_step_paused : (stepped 0 (looping .paused)).dt = 1 ∧ (stepped 0 (looping .paused)).st = 1 ∧
    (stepped 0 (looping .paused)).pc = 0x200#16 ∧ (stepped 0 (looping .paused)).beep = false := by decide +kernel

theorem test_step_between_periods : (stepped (1 / 1200) (looping .running)).cpuAcc = 1 / 1200 ∧
    (stepped (1 / 1200) (looping .running)).tickAcc = 1 / 1200 ∧
    (stepped (1 / 1200) (looping .running)).dt = 2 := by decide +kernel

theorem test_step_no_catch_up : (stepped 1 (looping .running)).dt = 1 ∧ (stepped 1 (looping .running)).st = 1 ∧
    (stepped 1 (looping .running)).cpuAcc = 0 ∧ (stepped 1 (looping .running)).beep = true := by decide +kernel

theorem test_step_remainder : (stepped (1 / 50) (looping .running)).tickAcc = 1 / 300 := by decide +kernel

theorem test_step_beep_after_tick :
    (stepped (1 / 60) ((looping .running).setSt 1)).beep = false := by decide +kernel

/-- The store of 255's third digit faults; the step records the word and its address, and does not tick. -/
theorem test_step_fault :
    let t := stepped 0 (bytes 0x200 [0xF0, 0x33] (((regs [(0, 255)] State.reset).setI 0xFFE#16).setDt 2))
    t.fault = some ⟨.memBounds 0x1000, 0xF033#16, 0x200#16⟩ ∧ t.pc = 0x202#16 ∧ t.dt = 2 := by decide +kernel

theorem test_step_fetch_fault : (stepped 0 (State.reset.setPc 0x10FE#16)).fault =
    some ⟨.memBounds 0x10FE, 0, 0x10FE#16⟩ := by decide +kernel

theorem test_step_halted : stepped 1 ((looping .running).setFault (some ⟨.decodeFault, 0, 0x200#16⟩)) =
    (looping .running).setFault (some ⟨.decodeFault, 0, 0x200#16⟩) := by decide +kernel

/-- Any executed instruction consumes a release mark (here 6000). -/
theorem test_step_sweep :
    (stepped 0 (bytes 0x200 [0x60, 0x00] (State.reset.setKey 2 .justReleased))).keyAt 2 = .released := by decide +kernel

/-- Program P6: the stored word is the next one to be fetched. -/
theorem test_step_self_modifying :
    let s := bytes 0x206 [0xF1, 0x55, 0x00, 0x00] (((regs [(0, 0x6A), (1, 0x77)] State.reset).setI 0x208#16).setPc 0x206#16)
    (stepped 0 s).nextWord = 0x6A77#16 := by decide +kernel

theorem test_change_clock : (acted (.changeClock 1000) ((looping .running).setAccs (1 / 1200) 0)).cpuAcc = 0 ∧
    (acted (.changeClock 600) ((looping .running).setAccs (1 / 1200) 0)).cpuAcc = 1 / 1200 := by decide +kernel

theorem test_insert_empty :
    (acted (.insertCartridge []) ((looping .running).setFault (some ⟨.decodeFault, 0, 0x200#16⟩))).fault = none ∧
    (acted (.insertCartridge []) (looping .running)).run = .paused ∧
    (acted (.insertCartridge []) (looping .running)).mem.read 0x200 = 0 := by decide +kernel

theorem test_reset_restores_rom :
    (acted .reset (bytes 0x200 [0xFF] (acted (.insertCartridge [0x22, 0x00]) State.reset))).mem.read 0x200 = 0x22 := by
  decide +kernel

/-- The word placed for the next fetch is the one that runs. -/
theorem test_withFetchWord :
    (match step (State.reset.withFetchWord 16 0x6A2C) with
      | .next t => t.reg 0xA == 0x2C && t.pc == 0x202#16
      | .fault _ => false
      | .refused _ => false) = true := by decide +kernel

/-- From reset with nothing placed, the word 0000 faults (R76). -/
theorem test_reset_step_faults :
    (match step State.reset with
      | .next t => t.fault == some ⟨.decodeFault, 0, 0x200#16⟩
      | .fault _ => false
      | .refused _ => false) = true := by decide +kernel

/-! ## Witnesses: the hypotheses of each statement can be met, each clause at a boundary of its range -/

theorem witness_DecodeOfEncode : (Instr.jpV0 0xF 0xFFF#12).wellFormed = true := by decide

theorem witness_EncodeOfDecode : decodeWord 0xF165#16 = .ok (.loadRegs 1) := by decide

theorem witness_RetPopsOrUnderflows : 0 < (State.reset.setSp 1).sp.val ∧ 0 < (State.reset.setSp 16).sp.val ∧
    State.reset.sp.val = 0 := by decide

theorem witness_CallPushesOrOverflows : State.reset.sp.val < 16 ∧ (State.reset.setSp 15).sp.val < 16 ∧
    (State.reset.setSp 16).sp.val = 16 := by decide

theorem witness_SkipOnRegisters : (1#4 : BitVec 4) ≠ 0 ∧ (0xF#4 : BitVec 4) ≠ 0 := by decide

theorem witness_JumpWithOffset : (0x0#4).toNat = (0x0FF#12).toNat / 256 ∧ (0xF#4).toNat = (0xFFF#12).toNat / 256 := by decide

theorem witness_BitwiseLogic (x y : RegIdx) :
    (∃ (i : Instr) (f : Bool → Bool → Bool), i = .orReg x y ∧ f = or) ∧
    (∃ (i : Instr) (f : Bool → Bool → Bool), i = .andReg x y ∧ f = and) ∧
    (∃ (i : Instr) (f : Bool → Bool → Bool), i = .xorReg x y ∧ f = xor) :=
  ⟨⟨_, _, rfl, rfl⟩, ⟨_, _, rfl, rfl⟩, ⟨_, _, rfl, rfl⟩⟩

/-- A sprite whose two shown rows are the last two bytes of memory, clipped at the bottom edge. -/
def edgeDraw : State := bytes 0xFFE [0xFF, 0xFF] ((regs [(1, 56), (2, 30)] State.reset).setI 0xFFE#16)

theorem witness_DrawCompletesAndFrame :
    edgeDraw.i.toNat + shownRows ((edgeDraw.reg 2).toNat % 32) 4 ≤ 4096 := by decide

theorem witness_DrawTogglesCells :
    edgeDraw.i.toNat + shownRows ((edgeDraw.reg 2).toNat % 32) 15 ≤ 4096 ∧ edgeDraw.trace = false ∧
    (edgeDraw.reg 2).toNat % 32 ≤ 31 ∧ 31 < (edgeDraw.reg 2).toNat % 32 + shownRows ((edgeDraw.reg 2).toNat % 32) 15 ∧
    (edgeDraw.reg 1).toNat % 64 ≤ 63 ∧ 63 ≤ (edgeDraw.reg 1).toNat % 64 + 7 := by decide

/-- In trace mode: the last column with start column 56, and another column with start column 57. -/
theorem witness_DrawTogglesCells_trace :
    ({ edgeDraw with trace := true }).trace = true ∧ (edgeDraw.reg 1).toNat % 64 ≤ 56 ∧
    ((edgeDraw.setReg 1 57).reg 1).toNat % 64 ≤ 62 ∧ 62 ≤ ((edgeDraw.setReg 1 57).reg 1).toNat % 64 + 7 ∧
    (62 : Nat) ≠ 63 := by decide

/-- Start column 57, row 0xFF: two 1 bits go to the last column, the vector of spec/95_test_vectors.md part 2.4. -/
theorem witness_DrawReportsCollision :
    edgeDraw.i.toNat + shownRows ((edgeDraw.reg 2).toNat % 32) 2 ≤ 4096 ∧ (edgeDraw.reg 1).toNat % 64 ≤ 56 ∧
    (edgeDraw.setReg 1 57).i.toNat + shownRows (((edgeDraw.setReg 1 57).reg 2).toNat % 32) 2 ≤ 4096 ∧
    1 < shownRows (((edgeDraw.setReg 1 57).reg 2).toNat % 32) 2 ∧
    2 ≤ lastColumnBits (((edgeDraw.setReg 1 57).reg 1).toNat % 64) (edgeDraw.mem.read 0xFFF) := by decide

/-- The vector with start row 29: row 2 is the first beyond memory. -/
theorem witness_DrawFaultsBeyondMemory :
    2 = 4096 - (edgeDraw.setReg 2 29).i.toNat ∧
      2 < shownRows (((edgeDraw.setReg 2 29).reg 2).toNat % 32) 4 := by decide

theorem witness_DrawFaultsBeyondMemory_first_row :
    0 = 4096 - (edgeDraw.setI 0x1000#16).i.toNat ∧
      0 < shownRows (((edgeDraw.setI 0x1000#16).reg 2).toNat % 32) 1 := by decide

theorem witness_DrawTwiceRestores : ∃ t u : State, exec (.drw 1 2 2) edgeDraw = .next t ∧ t.reg 1 = edgeDraw.reg 1 ∧
    t.reg 2 = edgeDraw.reg 2 ∧ exec (.drw 1 2 2) t = .next u :=
  ⟨after (.drw 1 2 2) edgeDraw, after (.drw 1 2 2) (after (.drw 1 2 2) edgeDraw), rfl, by decide +kernel,
    by decide +kernel, rfl⟩

/-- The two states differ in an intermediate intensity and in the trace mode. -/
theorem witness_IntensitiesNeverFeedBack :
    (∀ p q : Nat, p < 64 → q < 32 →
      (Display.get (Display.set Display.blank 63 31 254#8) p q = 255#8 ↔ State.reset.cell p q = 255#8)) ∧
    ∃ t u : State, exec (.drw 1 2 2) State.reset = .next t ∧
      exec (.drw 1 2 2) { State.reset with disp := Display.set Display.blank 63 31 254#8, trace := true } = .next u := by
  refine ⟨fun p q _ _ => ?_, _, _, rfl, rfl⟩
  have h : State.reset.cell p q = 0 := Display.get_blank p q
  rw [h, Display.get_set]
  split <;> simp

theorem witness_SkipOnKey :
    ((regs [(3, 0)] State.reset).reg 3).toNat = (0#4).toNat ∧ ((regs [(3, 15)] State.reset).reg 3).toNat = (0xF#4).toNat ∧
    ((regs [(3, 16)] State.reset).reg 3).toNat > 15 ∧ ((regs [(3, 255)] State.reset).reg 3).toNat > 15 := by decide

theorem witness_WaitForKey :
    ((State.reset.setKey 0xF .justReleased).keyAt 0xF = .justReleased ∧
      ∀ j : RegIdx, j.toNat < (0xF#4).toNat → (State.reset.setKey 0xF .justReleased).keyAt j ≠ .justReleased) ∧
    ((State.reset.setKey 0 .justReleased).keyAt 0 = .justReleased ∧
      ∀ j : RegIdx, j.toNat < (0#4).toNat → (State.reset.setKey 0 .justReleased).keyAt j ≠ .justReleased) ∧
    ∀ k : RegIdx, State.reset.keyAt k ≠ .justReleased := by decide

theorem witness_AddToIndex :
    ((regs [(0, 0xFF)] State.reset).setI 0xFF00#16).i.toNat + ((regs [(0, 0xFF)] State.reset).reg 0).toNat ≤ 0xFFFF ∧
    ((regs [(0, 1)] State.reset).setI 0xFFFF#16).i.toNat + ((regs [(0, 1)] State.reset).reg 0).toNat > 0xFFFF := by decide

theorem witness_CanonicalMemoryIsUnique :
    Memory.wf [(0x200, 1#8), (0xFFF, 2#8)] ∧
    (∀ a : Nat, a < 4096 → Memory.read [(0x200, 1#8), (0xFFF, 2#8)] a = Memory.read [(0x200, 1#8), (0xFFF, 2#8)] a) := by
  refine ⟨⟨by decide, ?_⟩, fun _ _ => rfl⟩
  intro c hc
  rcases List.mem_cons.1 hc with rfl | hc
  · exact ⟨by decide, by decide⟩
  · rcases List.mem_cons.1 hc with rfl | hc
    · exact ⟨by decide, by decide⟩
    · cases hc

/-- The stored byte is the low byte of the very last word of memory. -/
theorem witness_StoreIsSeenByNextFetch :
    ∃ t, memWrite 0xFFF 0xAA (State.reset.setPc 0xFFE#16) = .ok t ∧ (State.reset.setPc 0xFFE#16).pc.toNat ≤ 0xFFE :=
  ⟨_, rfl, by decide⟩

theorem witness_StepRunsDecodedInstruction :
    let s := (bytes 0xFFE [0x6A, 0x77] State.reset).setPc 0xFFE#16
    s.fault = none ∧ doExec (Config.elapsed s.steps).val s = true ∧ s.pc.toNat ≤ 0xFFE ∧
      decodeWord s.nextWord = .ok (.ldK 0xA 0x77) := by
  refine ⟨rfl, rfl, by decide, by decide⟩

theorem witness_StepFaultsOnBadWord :
    State.reset.fault = none ∧ doExec 0 State.reset = true ∧ (State.reset.setPc 0xFFF#16).pc.toNat > 0xFFE ∧
    State.reset.pc.toNat ≤ 0xFFE ∧ decodeWord State.reset.nextWord = .error .class0 := by decide

theorem witness_FaultedCoreStands :
    (raise .decodeFault State.reset).fault ≠ none ∧ State.reset.fault = none ∧ doExec 0 State.reset = true ∧
    ∃ u, fetchExecute (beginStep 0 State.reset) = .next u ∧ u.fault ≠ none := by
  refine ⟨by decide, by decide, by decide, raise .decodeFault ((State.afterFetch 0 State.reset)), ?_, by decide +kernel⟩
  rfl

/-- A step that does not fault, and one that does. -/
theorem witness_PausedStepExecutesAndTicks :
    (looping .paused).run = .paused ∧ (looping .paused).fault = none ∧
    (∃ u, fetchExecute (beginStep 0 (looping .paused)) = .next u ∧ u.fault = none) ∧
    State.reset.run = .paused ∧ State.reset.fault = none ∧
    ∃ u, fetchExecute (beginStep 0 State.reset) = .next u ∧ u.fault ≠ none :=
  ⟨by decide, by decide, ⟨_, rfl, rfl⟩, by decide, by decide,
    ⟨raise .decodeFault (State.afterFetch 0 State.reset), rfl, by decide +kernel⟩⟩

theorem witness_IdleStepExecutesNothing :
    (looping .running).fault = none ∧ (looping .running).run = .running ∧
    (looping .running).cpuAcc + 1 / 1200 < 1 / (looping .running).cpuHz := by decide +kernel

/-- The tick can be due when no instruction is: a clock of 10 Hz, and one period of the 60 Hz timer exactly. -/
theorem witness_IdleStepExecutesNothing_tick :
    ({ looping .running with cpuHz := 10 }).cpuAcc + 1 / 60 < 1 / ({ looping .running with cpuHz := 10 }).cpuHz ∧
    (1 : Rat) / 60 ≤ (looping .running).tickAcc + 1 / 60 := by decide +kernel

/-- One period exactly, and the `Paused` mode. -/
theorem witness_ExecutedStepSweepsTicksBeeps :
    (looping .running).fault = none ∧ 1 / (looping .running).cpuHz ≤ (looping .running).cpuAcc + 1 / 600 ∧
    (looping .paused).run = .paused ∧
    (∃ u, fetchExecute (beginStep (1 / 600) (looping .running)) = .next u ∧ u.fault = none) ∧
    ∃ u, fetchExecute (beginStep 0 (looping .paused)) = .next u ∧ u.fault = none :=
  ⟨by decide, by decide +kernel, by decide, ⟨_, rfl, rfl⟩, ⟨_, rfl, rfl⟩⟩

theorem witness_IntervalTimersAdvance :
    State.reset.fault = none ∧ 0 < State.reset.cpuHz ∧ ∃ t, cycle (1 / 600) State.reset = .next t :=
  ⟨by decide, by decide +kernel, cycle_isNext _ _⟩

/-- One fault of each kind. -/
theorem witness_FaultsByInstruction :
    fetch (State.reset.setPc 0x1000#16) = .error (.memBounds 0x1000) ∧
    decodeWord (State.reset.setFetched 0 0).fetchWord = .error .class0 ∧
    (∃ t, executeFetched (State.reset.setFetched 0 0) = .next t) ∧
    (base false).fault = none ∧
    (after (.call 0) ((base false).setSp 16)).fault = record .stackOverflow ∧
    (after .ret (base false)).fault = record .stackUnderflow ∧
    (after (.loadRegs 0) ((base false).setI 0x1000#16)).fault = record (.memBounds 0x1000) ∧
    (after (.sknp 0) (regs [(0, 16)] (base false))).fault = record (.keyIndex 16) ∧
    (after (.addI 0) ((regs [(0, 1)] (base false)).setI 0xFFFF#16)).fault = record (.indexOverflow 0x10000) := by
  refine ⟨by decide, by decide, executeFetched_isNext _, ?_⟩
  decide

theorem witness_FaultRecordNamesInstruction : State.reset.fault = none ∧
    (∃ t, cycle 0 State.reset = .next t ∧ t.fault = some ⟨.decodeFault, 0, 0x200#16⟩) ∧
    ∃ t, cycle 0 (State.reset.setPc 0xFFF#16) = .next t ∧ t.fault = some ⟨.memBounds 0x1000, 0, 0xFFF#16⟩ :=
  ⟨rfl, ⟨stepped 0 State.reset, rfl, by decide +kernel⟩,
    ⟨stepped 0 (State.reset.setPc 0xFFF#16), rfl, by decide +kernel⟩⟩

/-- The hypothesis of the statements about every instruction (`InstructionsLeaveHostState`, `EachItemHasItsWriters`). -/
theorem witness_InstructionsLeaveHostState : ∃ t, exec (.rnd 1 0xFF) State.reset = .next t := ⟨_, rfl⟩

theorem witness_EachItemHasItsWriters :
    (after (.storeRegs 0) ((regs [(0, 1)] State.reset).setI 0x300#16)).mem ≠ State.reset.mem ∧
    (after (.drw 0 0 1) edgeDraw).cell 0 0 ≠ edgeDraw.cell 0 0 ∧
    (after (.call 0) (base false)).sp ≠ (base false).sp ∧ (after (.call 0) (base false)).stack ≠ (base false).stack ∧
    (after (.ldDtVx 0) (regs [(0, 1)] State.reset)).dt ≠ State.reset.dt ∧
    (after (.ldStVx 0) (regs [(0, 1)] State.reset)).st ≠ State.reset.st ∧
    (after (.ldVxKey 0) (State.reset.setKey 0 .justReleased)).key ≠ (State.reset.setKey 0 .justReleased).key ∧
    (after (.ldI 1) State.reset).i ≠ State.reset.i := by decide +kernel

theorem witness_QuirkModeChangesNoOtherInstruction :
    (∀ x y, Instr.cls ≠ .orReg x y) ∧ (∀ x y, Instr.cls ≠ .andReg x y) ∧ (∀ x y, Instr.cls ≠ .xorReg x y) ∧
    (∀ x y, Instr.cls ≠ .shrReg x y) ∧ (∀ x y, Instr.cls ≠ .shlReg x y) ∧ (∀ x a, Instr.cls ≠ .jpV0 x a) ∧
    (∀ x, Instr.cls ≠ .storeRegs x) ∧ (∀ x, Instr.cls ≠ .loadRegs x) ∧ ∃ t, exec .cls State.reset = .next t := by
  simp [exec, execCls]

theorem witness_JumpToSelfStays :
    (looping .running).fault = none ∧ (looping .running).pc.toNat = (0x200#12).toNat ∧ (0x200#12).toNat ≤ 0xFFE ∧
    (looping .running).nextWord = 0x1#4 ++ 0x200#12 := by decide

theorem witness_steps_keep_invariants :
    State.reset.MemoryCanonical ∧ State.reset.PcBounded ∧ State.reset.TimersInRange ∧ ∃ t, step State.reset = .next t :=
  ⟨by decide, by decide, by decide +kernel, cycle_isNext _ _⟩

theorem witness_StepKeepsDisplayTwoValued : State.reset.DisplayTwoValued ∧ ∃ t, step State.reset = .next t :=
  ⟨⟨rfl, fun x y _ _ => .inl (Display.get_blank x y)⟩, cycle_isNext _ _⟩

theorem witness_ReachableStatesMeetInvariants_clauses :
    (∃ s, new 1000 true = .next s) ∧ State.reset.Inv ∧
    ∃ t, transact (.insertCartridge [0x12, 0x00]) State.reset = .next t :=
  ⟨⟨State.construct 1000 true, if_neg (by decide +kernel)⟩, ⟨by decide, by decide, by decide +kernel, by decide⟩, ⟨_, rfl⟩⟩

/-- A state that only transactions lead to. -/
theorem witness_ReachableStatesMeetInvariants :
    ∃ s, Reachable s ∧ s.run = .running ∧ s.schip = true :=
  ⟨(State.construct 1000 true).setRun .running,
    .act _ _ .run (.construct 1000 true (State.construct 1000 true) (if_neg (by decide +kernel))) rfl, rfl, rfl⟩

theorem witness_PowerOnState : (0 : Rat) < 1 / 1000 ∧ (0 : Rat) ≤ 0 := by decide +kernel

theorem witness_CartridgeInsertionResets :
    ([] : List Byte).length ≤ 3584 ∧ (List.replicate 3584 (0#8)).length ≤ 3584 ∧
    (List.replicate 3585 (0#8)).length > 3584 := by
  simp only [List.length_replicate, List.length_nil]; decide

theorem witness_ResetReinsertsLastRom :
    (∀ b, Transaction.pause ≠ .insertCartridge b) ∧ (∃ t, transact .pause State.reset = .next t) ∧
    ∃ t, transact (.insertCartridge [0x12, 0x00]) State.reset = .next t ∧ (bytes 0x200 [0xFF] t).rom = t.rom :=
  ⟨by simp, ⟨_, rfl⟩, ⟨_, rfl, rfl⟩⟩

theorem witness_HostSettersChangeOneItem :
    (0 : Rat) < 1000 ∧ (1000 : Rat) ≠ State.reset.cpuHz ∧ (0 : Rat) ≤ 0 := by decide +kernel

/-- A cell at 254 may fade to 0; a cell at 255 may not. -/
theorem witness_DecayLeavesLogicalPicture :
    let s := State.reset.setDisp (Display.set Display.blank 63 31 254#8)
    ∃ t : State, { t with disp := s.disp } = s ∧ t.cell 63 31 ≠ s.cell 63 31 ∧ s.cell 63 31 ≠ 0 ∧ s.cell 63 31 ≠ 255#8 ∧
      t.cell 63 31 ≠ 255#8 :=
  ⟨State.reset, rfl, by decide +kernel, by decide +kernel, by decide +kernel, by decide +kernel⟩

end Sys2Proof.Tests
end

