-- ==== Sys2Proof/Proofs/Flow.lean ====
section
/-! PROOFS. Control transfer: the jump and the skips on an immediate (spec/40_flow.md R101, R103, R104, R108). -/

namespace Sys2Proof.Machine

/-! The words of the three instructions (R74): each layout gives back its class and its operands. -/

theorem decodeWord_jp (a : Addr12) : decodeWord (0x1#4 ++ a) = .ok (.jp a) := by
  simp [decodeWord]

theorem decodeWord_seK (x : RegIdx) (k : Byte) : decodeWord (0x3#4 ++ x ++ k) = .ok (.seK x k) := by
  simp [decodeWord]

theorem decodeWord_sneK (x : RegIdx) (k : Byte) : decodeWord (0x4#4 ++ x ++ k) = .ok (.sneK x k) := by
  simp [decodeWord]

/-! Their meanings. -/

theorem exec_jp (a : Addr12) (s : State) : exec (.jp a) s = .next (s.setPc (a.setWidth 16)) := rfl

theorem exec_seK (x : RegIdx) (k : Byte) (s : State) :
    exec (.seK x k) s = .next (skipIf (s.reg x == k) s) := rfl

theorem exec_sneK (x : RegIdx) (k : Byte) (s : State) :
    exec (.sneK x k) s = .next (skipIf (s.reg x != k) s) := rfl

theorem State.setPc_frame (a : Word) (s : State) : { s.setPc a with pc := s.pc } = s := rfl

theorem skipIf_frame (c : Bool) (s : State) : { skipIf c s with pc := s.pc } = s := by
  cases c <;> rfl

/-- What any instruction does that skips on a condition: `PC` moves by 2 exactly when the condition `P` that its test
`c` decides holds, and nothing else changes (R108). -/
theorem exec_skip_spec {i : Instr} {s : State} {c : Bool} {P : Prop} [Decidable P]
    (hexec : exec i s = .next (skipIf c s)) (htest : c = true ↔ P) :
    ∃ t, exec i s = .next t ∧ t.pc = (if P then s.pc + 2 else s.pc) ∧ { t with pc := s.pc } = s := by
  refine ⟨skipIf c s, hexec, ?_, skipIf_frame c s⟩
  simp only [skipIf_pc, htest]

/-- Equality of bytes, as the skips test it and as numbers. -/
theorem byte_beq_iff_toNat_eq (b k : Byte) : (b == k) = true ↔ b.toNat = k.toNat := by
  rw [beq_iff_eq, BitVec.toNat_inj]

theorem byte_bne_iff_toNat_ne (b k : Byte) : (b != k) = true ↔ b.toNat ≠ k.toNat := by
  rw [bne_iff_ne, Ne, Ne, BitVec.toNat_inj]

/-- Settles O7: the jump is one write of `PC`, with the zero-extended address. -/
theorem jumpSetsPc : Obligations.JumpSetsPc := by
  intro a
  exact ⟨decodeWord_jp a, fun s =>
    ⟨s.setPc (a.setWidth 16), exec_jp a s, BitVec.toNat_setWidth_of_le (by decide), State.setPc_frame _ s⟩⟩

/-- Settles O9: both skips are `skipIf` on the comparison of the register with the immediate. -/
theorem skipOnImmediate : Obligations.SkipOnImmediate := by
  intro x k
  exact ⟨decodeWord_seK x k, decodeWord_sneK x k, fun s =>
    ⟨exec_skip_spec (exec_seK x k s) (byte_beq_iff_toNat_eq _ k),
      exec_skip_spec (exec_sneK x k s) (byte_bne_iff_toNat_ne _ k)⟩⟩

end Sys2Proof.Machine
end

