-- ==== Sys2Proof/Proofs/Alu.lean ====
section
/-! PROOFS. Immediate load and add, logic, arithmetic and shifts (spec/41_alu.md R120 to R130, R132, R133). -/

namespace Sys2Proof.Machine

/-! The words of the instructions (R74). -/

theorem decodeWord_ldK (x : RegIdx) (k : Byte) : decodeWord (0x6#4 ++ x ++ k) = .ok (.ldK x k) := by
  simp [decodeWord]

theorem decodeWord_addK (x : RegIdx) (k : Byte) : decodeWord (0x7#4 ++ x ++ k) = .ok (.addK x k) := by
  simp [decodeWord]

/-- Within class 8 the low nibble alone selects the operation. -/
theorem decodeWord_class8 (x y : RegIdx) (n : BitVec 4) :
    decodeWord (0x8#4 ++ x ++ y ++ n) = decodeClass8 (0x8#4 ++ x ++ y ++ n) := by
  simp [decodeWord]

theorem decodeWord_orReg (x y : RegIdx) : decodeWord (0x8#4 ++ x ++ y ++ 0x1#4) = .ok (.orReg x y) := by
  simp [decodeWord_class8, decodeClass8]

theorem decodeWord_andReg (x y : RegIdx) : decodeWord (0x8#4 ++ x ++ y ++ 0x2#4) = .ok (.andReg x y) := by
  simp [decodeWord_class8, decodeClass8]

theorem decodeWord_xorReg (x y : RegIdx) : decodeWord (0x8#4 ++ x ++ y ++ 0x3#4) = .ok (.xorReg x y) := by
  simp [decodeWord_class8, decodeClass8]

theorem decodeWord_addReg (x y : RegIdx) : decodeWord (0x8#4 ++ x ++ y ++ 0x4#4) = .ok (.addReg x y) := by
  simp [decodeWord_class8, decodeClass8]

theorem decodeWord_subReg (x y : RegIdx) : decodeWord (0x8#4 ++ x ++ y ++ 0x5#4) = .ok (.subReg x y) := by
  simp [decodeWord_class8, decodeClass8]

theorem decodeWord_subnReg (x y : RegIdx) : decodeWord (0x8#4 ++ x ++ y ++ 0x7#4) = .ok (.subnReg x y) := by
  simp [decodeWord_class8, decodeClass8]

theorem decodeWord_shrReg (x y : RegIdx) : decodeWord (0x8#4 ++ x ++ y ++ 0x6#4) = .ok (.shrReg x y) := by
  simp [decodeWord_class8, decodeClass8]

theorem decodeWord_shlReg (x y : RegIdx) : decodeWord (0x8#4 ++ x ++ y ++ 0xE#4) = .ok (.shlReg x y) := by
  simp [decodeWord_class8, decodeClass8]

/-! The meanings of the instructions, by the write each one ends in. -/

theorem exec_ldK (x : RegIdx) (k : Byte) (s : State) : exec (.ldK x k) s = .next (s.setReg x k) := rfl

theorem exec_addK (x : RegIdx) (k : Byte) (s : State) :
    exec (.addK x k) s = .next (s.setReg x (s.reg x + k)) := rfl

theorem exec_orReg (x y : RegIdx) (s : State) :
    exec (.orReg x y) s = .next (writeLogic x (s.reg x ||| s.reg y) s) := rfl

theorem exec_andReg (x y : RegIdx) (s : State) :
    exec (.andReg x y) s = .next (writeLogic x (s.reg x &&& s.reg y) s) := rfl

theorem exec_xorReg (x y : RegIdx) (s : State) :
    exec (.xorReg x y) s = .next (writeLogic x (s.reg x ^^^ s.reg y) s) := rfl

theorem exec_addReg (x y : RegIdx) (s : State) : exec (.addReg x y) s =
    .next (writeResultFlag x ((wideSum (s.reg x) (s.reg y)).setWidth 8) (carryOut (s.reg x) (s.reg y)) s) := rfl

theorem exec_subReg (x y : RegIdx) (s : State) : exec (.subReg x y) s =
    .next (writeResultFlag x (s.reg x - s.reg y) (notBorrow (s.reg x) (s.reg y)) s) := rfl

theorem exec_subnReg (x y : RegIdx) (s : State) : exec (.subnReg x y) s =
    .next (writeResultFlag x (s.reg y - s.reg x) (notBorrow (s.reg y) (s.reg x)) s) := rfl

theorem exec_shrReg (x y : RegIdx) (s : State) : exec (.shrReg x y) s =
    .next (writeResultFlag x (shiftSource x y s >>> 1) (shiftedOutRight (shiftSource x y s)) s) := rfl

theorem exec_shlReg (x y : RegIdx) (s : State) : exec (.shlReg x y) s =
    .next (writeResultFlag x (shiftSource x y s <<< 1) (shiftedOutLeft (shiftSource x y s)) s) := rfl

/-! What the three kinds of register write leave unchanged: everything but the registers. -/

theorem State.setReg_frame (x : RegIdx) (b : Byte) (s : State) : { s.setReg x b with v := s.v } = s := rfl

theorem writeResultFlag_frame (x : RegIdx) (r : Byte) (flag : Bool) (s : State) :
    { writeResultFlag x r flag s with v := s.v } = s := rfl

theorem writeLogic_frame (x : RegIdx) (r : Byte) (s : State) : { writeLogic x r s with v := s.v } = s := by
  unfold writeLogic
  cases s.schip <;> rfl

/-! What an instruction does that ends in such a write. -/

/-- One register written, no flag (R120, R121). -/
theorem exec_setReg_spec {i : Instr} {s : State} {x : RegIdx} {b : Byte}
    (hexec : exec i s = .next (s.setReg x b)) :
    ∃ t, exec i s = .next t ∧ (∀ r, t.reg r = if r = x then b else s.reg r) ∧ { t with v := s.v } = s := by
  refine ⟨s.setReg x b, hexec, fun r => ?_, State.setReg_frame x b s⟩
  simp only [State.reg_setReg, @eq_comm _ r]

/-- Result and flag as numbers, the flag last: where the destination is `VF`, the flag is what stays (R133). -/
theorem exec_resultFlag_spec {i : Instr} {s : State} {x : RegIdx} {b : Byte} {flag : Bool} {result flagValue : Nat}
    (hexec : exec i s = .next (writeResultFlag x b flag s))
    (hresult : b.toNat = result) (hflag : (flagByte flag).toNat = flagValue) :
    ∃ t, exec i s = .next t ∧
      (∀ r, (t.reg r).toNat = if r = 0xF#4 then flagValue else if r = x then result else (s.reg r).toNat) ∧
      { t with v := s.v } = s := by
  refine ⟨writeResultFlag x b flag s, hexec, fun r => ?_, writeResultFlag_frame x b flag s⟩
  simp only [reg_writeResultFlag, @eq_comm _ r, apply_ite BitVec.toNat, hresult, hflag]

/-- A bitwise result, `f` saying what each of its bits is; legacy mode clears `VF` last (R123 to R125). -/
theorem exec_logic_spec {i : Instr} {s : State} {x y : RegIdx} {b : Byte} {f : Bool → Bool → Bool}
    (hexec : exec i s = .next (writeLogic x b s))
    (hbits : ∀ j, j < 8 → b.getLsbD j = f ((s.reg x).getLsbD j) ((s.reg y).getLsbD j)) :
    ∃ t, exec i s = .next t ∧
      (∀ (r : RegIdx) (j : Nat), j < 8 → (t.reg r).getLsbD j =
        if s.schip = false ∧ r = 0xF#4 then false
        else if r = x then f ((s.reg x).getLsbD j) ((s.reg y).getLsbD j)
        else (s.reg r).getLsbD j) ∧
      { t with v := s.v } = s := by
  refine ⟨writeLogic x b s, hexec, fun r j hj => ?_, writeLogic_frame x b s⟩
  rw [reg_writeLogic, ← hbits j hj]
  simp only [@eq_comm _ r, apply_ite (BitVec.getLsbD · j), BitVec.ofNat_eq_ofNat, BitVec.getLsbD_zero]

/-! Results and flags as numbers (R126 to R130, R132). -/

theorem flagByte_toNat (b : Bool) : (flagByte b).toNat = b.toNat := by
  cases b <;> rfl

/-- The 9-bit sum does not wrap. -/
theorem wideSum_toNat (a b : Byte) : (wideSum a b).toNat = a.toNat + b.toNat := by
  unfold wideSum
  bv_omega

theorem wideSum_low_toNat (a b : Byte) : ((wideSum a b).setWidth 8).toNat = (a.toNat + b.toNat) % 256 := by
  rw [BitVec.toNat_setWidth, wideSum_toNat]

/-- The carry is the top bit of the 9-bit sum. -/
theorem carryOut_eq (a b : Byte) : carryOut a b = decide (a.toNat + b.toNat > 255) := by
  have htop : carryOut a b = (wideSum a b).msb := rfl
  rw [htop, BitVec.msb_eq_decide, wideSum_toNat]
  rfl

theorem flagByte_carryOut_toNat (a b : Byte) :
    (flagByte (carryOut a b)).toNat = if a.toNat + b.toNat > 255 then 1 else 0 := by
  rw [flagByte_toNat, carryOut_eq, Bool.toNat, Bool.cond_decide]

theorem flagByte_notBorrow_toNat (a b : Byte) :
    (flagByte (notBorrow a b)).toNat = if a.toNat ≥ b.toNat then 1 else 0 := by
  rw [flagByte_toNat, notBorrow, Bool.toNat, Bool.cond_decide]

theorem byte_sub_toNat (a b : Byte) : (a - b).toNat = (a.toNat + 256 - b.toNat) % 256 := by
  bv_omega

theorem shiftRight_one_toNat (a : Byte) : (a >>> 1).toNat = a.toNat / 2 := by
  rw [BitVec.toNat_ushiftRight, Nat.shiftRight_eq_div_pow]

theorem shiftLeft_one_toNat (a : Byte) : (a <<< 1).toNat = a.toNat * 2 % 256 := by
  rw [BitVec.toNat_shiftLeft, Nat.shiftLeft_eq]

theorem flagByte_shiftedOutRight_toNat (a : Byte) : (flagByte (shiftedOutRight a)).toNat = a.toNat % 2 := by
  rw [flagByte_toNat, shiftedOutRight, BitVec.getLsbD, Nat.toNat_testBit, Nat.pow_zero, Nat.div_one]

/-- Nothing is above bit 7 of a byte, so its quotient by 128 is that bit alone. -/
theorem flagByte_shiftedOutLeft_toNat (a : Byte) : (flagByte (shiftedOutLeft a)).toNat = a.toNat / 128 := by
  have hlt := a.isLt
  rw [flagByte_toNat, shiftedOutLeft, BitVec.getLsbD, Nat.toNat_testBit]
  omega

/-- Settles O12: each instruction is one write of register X. -/
theorem loadAndAddImmediate : Obligations.LoadAndAddImmediate := by
  intro x k
  refine ⟨decodeWord_ldK x k, decodeWord_addK x k, fun s => ⟨exec_setReg_spec (exec_ldK x k s), ?_⟩⟩
  obtain ⟨t, ht, hreg, hframe⟩ := exec_setReg_spec (exec_addK x k s)
  refine ⟨t, ht, fun r => ?_, hframe⟩
  rw [hreg, apply_ite BitVec.toNat, BitVec.toNat_add]

/-- Settles O14: the three instructions differ only in the operation on each bit. -/
theorem bitwiseLogic : Obligations.BitwiseLogic := by
  intro x y
  refine ⟨decodeWord_orReg x y, decodeWord_andReg x y, decodeWord_xorReg x y, ?_⟩
  rintro s i f (⟨rfl, rfl⟩ | ⟨rfl, rfl⟩ | ⟨rfl, rfl⟩)
  · exact exec_logic_spec (exec_orReg x y s) fun _ _ => BitVec.getLsbD_or
  · exact exec_logic_spec (exec_andReg x y s) fun _ _ => BitVec.getLsbD_and
  · exact exec_logic_spec (exec_xorReg x y s) fun _ _ => BitVec.getLsbD_xor

/-- Settles O15: sum and carry are the low byte and bit 8 of a 9-bit sum that does not wrap. -/
theorem addWithCarry : Obligations.AddWithCarry := by
  intro x y
  exact ⟨decodeWord_addReg x y, fun s =>
    exec_resultFlag_spec (exec_addReg x y s) (wideSum_low_toNat _ _) (flagByte_carryOut_toNat _ _)⟩

/-- Settles O16: one subtraction, with the operands exchanged for `SUBN`. -/
theorem subtractBothWays : Obligations.SubtractBothWays := by
  intro x y
  exact ⟨decodeWord_subReg x y, decodeWord_subnReg x y, fun s =>
    ⟨exec_resultFlag_spec (exec_subReg x y s) (byte_sub_toNat _ _) (flagByte_notBorrow_toNat _ _),
      exec_resultFlag_spec (exec_subnReg x y s) (byte_sub_toNat _ _) (flagByte_notBorrow_toNat _ _)⟩⟩

/-- Settles O17: the shifted byte and the bit shifted out, each as a number, of the source that the mode selects. -/
theorem shiftByOne : Obligations.ShiftByOne := by
  intro x y
  exact ⟨decodeWord_shrReg x y, decodeWord_shlReg x y, fun s =>
    ⟨exec_resultFlag_spec (exec_shrReg x y s) (shiftRight_one_toNat _) (flagByte_shiftedOutRight_toNat _),
      exec_resultFlag_spec (exec_shlReg x y s) (shiftLeft_one_toNat _) (flagByte_shiftedOutLeft_toNat _)⟩⟩

end Sys2Proof.Machine
end

