-- ==== Sys2Proof/Proofs/Timers.lean ====
section
/-! PROOFS. Transfers between a register and a timer (spec/43_keys_timers.md R163 to R165). -/

namespace Sys2Proof.Machine

/-! The words of the three instructions (R74). -/

/-- Within class F the low byte alone selects the operation. -/
theorem decodeWord_classF (x : RegIdx) (k : Byte) :
    decodeWord (0xF#4 ++ x ++ k) = decodeClassF (0xF#4 ++ x ++ k) := by
  simp [decodeWord]

theorem decodeWord_ldVxDt (x : RegIdx) : decodeWord (0xF#4 ++ x ++ 0x07#8) = .ok (.ldVxDt x) := by
  simp [decodeWord_classF, decodeClassF]

theorem decodeWord_ldDtVx (x : RegIdx) : decodeWord (0xF#4 ++ x ++ 0x15#8) = .ok (.ldDtVx x) := by
  simp [decodeWord_classF, decodeClassF]

theorem decodeWord_ldStVx (x : RegIdx) : decodeWord (0xF#4 ++ x ++ 0x18#8) = .ok (.ldStVx x) := by
  simp [decodeWord_classF, decodeClassF]

/-! Their meanings, each one write of its destination. -/

theorem exec_ldVxDt (x : RegIdx) (s : State) : exec (.ldVxDt x) s = .next (s.setReg x s.dt) := rfl

theorem exec_ldDtVx (x : RegIdx) (s : State) : exec (.ldDtVx x) s = .next (s.setDt (s.reg x)) := rfl

theorem exec_ldStVx (x : RegIdx) (s : State) : exec (.ldStVx x) s = .next (s.setSt (s.reg x)) := rfl

/-! What a write of a timer leaves unchanged: everything but that timer. -/

theorem State.setDt_frame (b : Byte) (s : State) : { s.setDt b with dt := s.dt } = s := rfl

theorem State.setSt_frame (b : Byte) (s : State) : { s.setSt b with st := s.st } = s := rfl

/-- Settles O29: each transfer is one write, of register X or of a timer. -/
theorem timerTransfers : Obligations.TimerTransfers := by
  intro x
  refine ⟨decodeWord_ldVxDt x, decodeWord_ldDtVx x, decodeWord_ldStVx x, fun s => ⟨?readDelay, ?setDelay, ?setSound⟩⟩
  case readDelay => exact exec_setReg_spec (exec_ldVxDt x s)
  case setDelay => exact ⟨s.setDt (s.reg x), exec_ldDtVx x s, State.setDt_dt s _, State.setDt_frame _ s⟩
  case setSound => exact ⟨s.setSt (s.reg x), exec_ldStVx x s, State.setSt_st s _, State.setSt_frame _ s⟩

end Sys2Proof.Machine
end

