-- ==== Sys2Proof/Proofs/Index.lean ====
section
/-! PROOFS. Loads of the index register (spec/44_index_memory.md R180, R182). -/

namespace Sys2Proof.Machine

/-! The words of the two instructions (R74). -/

theorem decodeWord_ldI (a : Addr12) : decodeWord (0xA#4 ++ a) = .ok (.ldI a) := by
  simp [decodeWord]

theorem decodeWord_ldF (x : RegIdx) : decodeWord (0xF#4 ++ x ++ 0x29#8) = .ok (.ldF x) := by
  simp [decodeWord_classF, decodeClassF]

/-! Their meanings, each one write of `I`. -/

theorem exec_ldI (a : Addr12) (s : State) : exec (.ldI a) s = .next (s.setI (a.setWidth 16)) := rfl

theorem exec_ldF (x : RegIdx) (s : State) : exec (.ldF x) s = .next (s.setI (glyphAddr (s.reg x))) := rfl

theorem State.setI_frame (a : Word) (s : State) : { s.setI a with i := s.i } = s := rfl

/-- What any instruction does that ends in a write of `I`, the written address as a number. -/
theorem exec_setI_spec {i : Instr} {s : State} {a : Word} {n : Nat}
    (hexec : exec i s = .next (s.setI a)) (haddr : a.toNat = n) :
    ∃ t, exec i s = .next t ∧ t.i.toNat = n ∧ { t with i := s.i } = s := by
  refine ⟨s.setI a, hexec, ?_, State.setI_frame a s⟩
  rw [State.setI_i, haddr]

/-- The mask of R182 keeps the low nibble. -/
theorem byte_and_lowNibble_toNat (b : Byte) : (b &&& 0x0F#8).toNat = b.toNat % 16 :=
  Nat.and_two_pow_sub_one_eq_mod b.toNat 4

/-- The glyph address does not wrap: the font ends below 0x200, wherever it begins. -/
theorem glyphAddr_toNat (b : Byte) :
    (glyphAddr b).toNat = Config.fontBase.val + 5 * (b.toNat % 16) := by
  have hbase : Config.fontBase.val < 433 := Config.fontBase.isLt
  rw [glyphAddr, Config.glyphBytes, BitVec.toNat_ofNat, byte_and_lowNibble_toNat]
  exact Nat.mod_eq_of_lt (by omega)

/-- Settles O30: each load is one write of `I`, with the zero-extended address or with the glyph address. -/
theorem loadIndex : Obligations.LoadIndex :=
  ⟨fun a => ⟨decodeWord_ldI a, fun s =>
      exec_setI_spec (exec_ldI a s) (BitVec.toNat_setWidth_of_le (by decide))⟩,
    fun x => ⟨decodeWord_ldF x, fun s =>
      exec_setI_spec (exec_ldF x s) (glyphAddr_toNat (s.reg x))⟩⟩

end Sys2Proof.Machine
end

/-! PROOFS. The decoder and the encoder (spec/30_encoding.md R70 to R76). -/

namespace Sys2Proof.Machine

/-! The words of the instructions that no other part decodes (R74): each layout gives back its class and its operands. -/

theorem decodeWord_cls : decodeWord 0x00E0#16 = .ok .cls := by decide

theorem decodeWord_ret : decodeWord 0x00EE#16 = .ok .ret := by decide

theorem decodeWord_call (a : Addr12) : decodeWord (0x2#4 ++ a) = .ok (.call a) := by
  simp [decodeWord]

/-- In classes 5 and 9 the low nibble must be 0 (R76). -/
theorem decodeWord_class5 (x y : RegIdx) (n : BitVec 4) :
    decodeWord (0x5#4 ++ x ++ y ++ n) = if n = 0#4 then .ok (.seReg x y) else .error .class5 := by
  simp [decodeWord]

theorem decodeWord_class9 (x y : RegIdx) (n : BitVec 4) :
    decodeWord (0x9#4 ++ x ++ y ++ n) = if n = 0#4 then .ok (.sneReg x y) else .error .class9 := by
  simp [decodeWord]

theorem decodeWord_seReg (x y : RegIdx) : decodeWord (0x5#4 ++ x ++ y ++ 0x0#4) = .ok (.seReg x y) := by
  rw [decodeWord_class5, if_pos rfl]

theorem decodeWord_sneReg (x y : RegIdx) : decodeWord (0x9#4 ++ x ++ y ++ 0x0#4) = .ok (.sneReg x y) := by
  rw [decodeWord_class9, if_pos rfl]

theorem decodeWord_ldReg (x y : RegIdx) : decodeWord (0x8#4 ++ x ++ y ++ 0x0#4) = .ok (.ldReg x y) := by
  simp [decodeWord_class8, decodeClass8]

theorem decodeWord_jpV0 (a : Addr12) : decodeWord (0xB#4 ++ a) = .ok (.jpV0 (addrTopNibble a) a) := by
  simp [decodeWord]

theorem decodeWord_rnd (x : RegIdx) (k : Byte) : decodeWord (0xC#4 ++ x ++ k) = .ok (.rnd x k) := by
  simp [decodeWord]

theorem decodeWord_drw (x y : RegIdx) (n : BitVec 4) :
    decodeWord (0xD#4 ++ x ++ y ++ n) = .ok (.drw x y n) := by
  simp [decodeWord]

/-- Within class E the low byte alone selects the key test. -/
theorem decodeWord_classE (x : RegIdx) (k : Byte) :
    decodeWord (0xE#4 ++ x ++ k) = decodeClassE (0xE#4 ++ x ++ k) := by
  simp [decodeWord]

theorem decodeWord_skp (x : RegIdx) : decodeWord (0xE#4 ++ x ++ 0x9E#8) = .ok (.skp x) := by
  simp [decodeWord_classE, decodeClassE]

theorem decodeWord_sknp (x : RegIdx) : decodeWord (0xE#4 ++ x ++ 0xA1#8) = .ok (.sknp x) := by
  simp [decodeWord_classE, decodeClassE]

theorem decodeWord_ldVxKey (x : RegIdx) : decodeWord (0xF#4 ++ x ++ 0x0A#8) = .ok (.ldVxKey x) := by
  simp [decodeWord_classF, decodeClassF]

theorem decodeWord_addI (x : RegIdx) : decodeWord (0xF#4 ++ x ++ 0x1E#8) = .ok (.addI x) := by
  simp [decodeWord_classF, decodeClassF]

theorem decodeWord_ldB (x : RegIdx) : decodeWord (0xF#4 ++ x ++ 0x33#8) = .ok (.ldB x) := by
  simp [decodeWord_classF, decodeClassF]

theorem decodeWord_storeRegs (x : RegIdx) : decodeWord (0xF#4 ++ x ++ 0x55#8) = .ok (.storeRegs x) := by
  simp [decodeWord_classF, decodeClassF]

theorem decodeWord_loadRegs (x : RegIdx) : decodeWord (0xF#4 ++ x ++ 0x65#8) = .ok (.loadRegs x) := by
  simp [decodeWord_classF, decodeClassF]

theorem wellFormed_jpV0_iff (x : RegIdx) (a : Addr12) :
    (Instr.jpV0 x a).wellFormed = true ↔ x = addrTopNibble a := beq_iff_eq

/-- The decoder undoes the encoder. Only `JP V0,ADDR` uses well-formedness: its `X` is not encoded beside `ADDR` (R72). -/
theorem decodeWord_encode (i : Instr) (hwf : i.wellFormed = true) : decodeWord (encode i) = .ok i := by
  cases i with
  | cls => exact decodeWord_cls
  | ret => exact decodeWord_ret
  | jp a => exact decodeWord_jp a
  | call a => exact decodeWord_call a
  | seK x k => exact decodeWord_seK x k
  | sneK x k => exact decodeWord_sneK x k
  | seReg x y => exact decodeWord_seReg x y
  | ldK x k => exact decodeWord_ldK x k
  | addK x k => exact decodeWord_addK x k
  | ldReg x y => exact decodeWord_ldReg x y
  | orReg x y => exact decodeWord_orReg x y
  | andReg x y => exact decodeWord_andReg x y
  | xorReg x y => exact decodeWord_xorReg x y
  | addReg x y => exact decodeWord_addReg x y
  | subReg x y => exact decodeWord_subReg x y
  | shrReg x y => exact decodeWord_shrReg x y
  | subnReg x y => exact decodeWord_subnReg x y
  | shlReg x y => exact decodeWord_shlReg x y
  | sneReg x y => exact decodeWord_sneReg x y
  | ldI a => exact decodeWord_ldI a
  | jpV0 x a =>
    obtain rfl := (wellFormed_jpV0_iff x a).1 hwf
    exact decodeWord_jpV0 a
  | rnd x k => exact decodeWord_rnd x k
  | drw x y n => exact decodeWord_drw x y n
  | skp x => exact decodeWord_skp x
  | sknp x => exact decodeWord_sknp x
  | ldVxDt x => exact decodeWord_ldVxDt x
  | ldVxKey x => exact decodeWord_ldVxKey x
  | ldDtVx x => exact decodeWord_ldDtVx x
  | ldStVx x => exact decodeWord_ldStVx x
  | addI x => exact decodeWord_addI x
  | ldF x => exact decodeWord_ldF x
  | ldB x => exact decodeWord_ldB x
  | storeRegs x => exact decodeWord_storeRegs x
  | loadRegs x => exact decodeWord_loadRegs x

/-- Settles O2: the two bytes of a word are that word again, so the byte stream decodes as the word does. -/
theorem decodeOfEncode : Obligations.DecodeOfEncode := by
  intro i hwf
  have hword := decodeWord_encode i hwf
  refine ⟨hword, fun rest => ?_⟩
  rw [encodeBytes, List.cons_append, List.cons_append, List.nil_append, decode_cons_cons, wordOfBytes_extract, hword]

/-! The other direction: a word whose class, and low nibble or byte where they select, are known is put together from the
rest of its fields. -/

theorem layoutA_of_class {w : Word} {c : BitVec 4} (hc : (fieldClass w).toNat = c.toNat) : c ++ fieldAddr w = w := by
  obtain rfl := BitVec.eq_of_toNat_eq hc
  exact (word_eq_layoutA w).symm

theorem layoutXK_of_class {w : Word} {c : BitVec 4} (hc : (fieldClass w).toNat = c.toNat) :
    c ++ fieldX w ++ fieldK w = w := by
  obtain rfl := BitVec.eq_of_toNat_eq hc
  exact (word_eq_layoutXK w).symm

theorem layoutXYN_of_class {w : Word} {c : BitVec 4} (hc : (fieldClass w).toNat = c.toNat) :
    c ++ fieldX w ++ fieldY w ++ fieldN w = w := by
  obtain rfl := BitVec.eq_of_toNat_eq hc
  exact (word_eq_layoutXYN w).symm

theorem layoutXY_of_class_nibble {w : Word} {c n : BitVec 4} (hc : (fieldClass w).toNat = c.toNat)
    (hn : (fieldN w).toNat = n.toNat) : c ++ fieldX w ++ fieldY w ++ n = w := by
  obtain rfl := BitVec.eq_of_toNat_eq hn
  exact layoutXYN_of_class hc

theorem layoutXS_of_class_byte {w : Word} {c : BitVec 4} {k : Byte} (hc : (fieldClass w).toNat = c.toNat)
    (hk : (fieldK w).toNat = k.toNat) : c ++ fieldX w ++ k = w := by
  obtain rfl := BitVec.eq_of_toNat_eq hk
  exact layoutXK_of_class hc

/-- The encoder gives back the word, and the term is well-formed. -/
abbrev EncodesTo (i : Instr) (w : Word) : Prop := encode i = w ∧ i.wellFormed = true

theorem encodesTo_of_decodeClass0 {w : Word} {i : Instr} (h : decodeClass0 w = .ok i) : EncodesTo i w := by
  unfold decodeClass0 at h
  split at h
  · cases h; exact ⟨‹w = _›.symm, rfl⟩
  · split at h
    · cases h; exact ⟨‹w = _›.symm, rfl⟩
    · cases h

theorem encodesTo_of_decodeClass8 {w : Word} {i : Instr} (hc : (fieldClass w).toNat = (0x8#4).toNat)
    (h : decodeClass8 w = .ok i) : EncodesTo i w := by
  unfold decodeClass8 at h
  split at h <;> cases h <;> exact ⟨layoutXY_of_class_nibble hc ‹_›, rfl⟩

theorem encodesTo_of_decodeClassE {w : Word} {i : Instr} (hc : (fieldClass w).toNat = (0xE#4).toNat)
    (h : decodeClassE w = .ok i) : EncodesTo i w := by
  unfold decodeClassE at h
  split at h <;> cases h <;> exact ⟨layoutXS_of_class_byte hc ‹_›, rfl⟩

theorem encodesTo_of_decodeClassF {w : Word} {i : Instr} (hc : (fieldClass w).toNat = (0xF#4).toNat)
    (h : decodeClassF w = .ok i) : EncodesTo i w := by
  unfold decodeClassF at h
  split at h <;> cases h <;> exact ⟨layoutXS_of_class_byte hc ‹_›, rfl⟩

/-- The `X` of a word is the top nibble of its `ADDR` (R72). -/
theorem fieldX_eq_addrTopNibble (w : Word) : fieldX w = addrTopNibble (fieldAddr w) := by
  conv_lhs => rw [word_eq_layoutA w]
  exact fieldX_layoutA _ _

/-- The class of a word that no earlier pattern of the decoder matched. -/
theorem fieldClass_eq_fifteen {w : Word} (h : ∀ c < 15, (fieldClass w).toNat ≠ c) :
    (fieldClass w).toNat = (0xF#4).toNat := by
  have hlt := (fieldClass w).isLt
  by_contra hne
  exact h _ (by simp at hne; omega) rfl

theorem encodesTo_of_decodeWord {w : Word} {i : Instr} (h : decodeWord w = .ok i) : EncodesTo i w := by
  unfold decodeWord at h
  split at h
  next => exact encodesTo_of_decodeClass0 h
  next hc => cases h; exact ⟨layoutA_of_class hc, rfl⟩
  next hc => cases h; exact ⟨layoutA_of_class hc, rfl⟩
  next hc => cases h; exact ⟨layoutXK_of_class hc, rfl⟩
  next hc => cases h; exact ⟨layoutXK_of_class hc, rfl⟩
  next hc =>
    split at h
    next hn => cases h; exact ⟨layoutXY_of_class_nibble hc (congrArg BitVec.toNat hn), rfl⟩
    next => cases h
  next hc => cases h; exact ⟨layoutXK_of_class hc, rfl⟩
  next hc => cases h; exact ⟨layoutXK_of_class hc, rfl⟩
  next hc => exact encodesTo_of_decodeClass8 hc h
  next hc =>
    split at h
    next hn => cases h; exact ⟨layoutXY_of_class_nibble hc (congrArg BitVec.toNat hn), rfl⟩
    next => cases h
  next hc => cases h; exact ⟨layoutA_of_class hc, rfl⟩
  next hc => cases h; exact ⟨layoutA_of_class hc, (wellFormed_jpV0_iff _ _).2 (fieldX_eq_addrTopNibble w)⟩
  next hc => cases h; exact ⟨layoutXK_of_class hc, rfl⟩
  next hc => cases h; exact ⟨layoutXYN_of_class hc, rfl⟩
  next hc => exact encodesTo_of_decodeClassE hc h
  next =>
    refine encodesTo_of_decodeClassF (fieldClass_eq_fifteen fun c hc => ?_) h
    interval_cases c <;> assumption

/-- Settles O3: class by class, the word is put together from the fields the decoder read. -/
theorem encodeOfDecode : Obligations.EncodeOfDecode := by
  intro w i h
  exact encodesTo_of_decodeWord h

/-! The fields of a word as quotients and remainders (R71). -/

theorem fieldClass_toNat (w : Word) : (fieldClass w).toNat = w.toNat / 4096 := by
  have hlt := w.isLt
  rw [fieldClass, BitVec.extractLsb'_toNat, Nat.shiftRight_eq_div_pow]
  omega

theorem fieldN_toNat (w : Word) : (fieldN w).toNat = w.toNat % 16 := by
  rw [fieldN, BitVec.extractLsb'_toNat, Nat.shiftRight_zero]

theorem fieldK_toNat (w : Word) : (fieldK w).toNat = w.toNat % 256 := by
  rw [fieldK, BitVec.extractLsb'_toNat, Nat.shiftRight_zero]

/-! Which words each class refuses (R76). -/

theorem decodeClass0_error_iff (w : Word) :
    (∃ e, decodeClass0 w = .error e) ↔ w.toNat ≠ 0x00E0 ∧ w.toNat ≠ 0x00EE := by
  have hcls : w = 0x00E0#16 ↔ w.toNat = 0x00E0 := BitVec.toNat_inj.symm
  have hret : w = 0x00EE#16 ↔ w.toNat = 0x00EE := BitVec.toNat_inj.symm
  unfold decodeClass0
  split
  next h => simp [hcls.1 h]
  next h =>
    split
    next h' => simp [hret.1 h']
    next h' => simp [mt hcls.2 h, mt hret.2 h']

theorem decodeClass8_error_iff (w : Word) :
    (∃ e, decodeClass8 w = .error e) ↔ w.toNat % 16 ∈ [0x8, 0x9, 0xA, 0xB, 0xC, 0xD, 0xF] := by
  have hlt : w.toNat % 16 < 16 := Nat.mod_lt _ (by decide)
  unfold decodeClass8
  rw [fieldN_toNat]
  generalize w.toNat % 16 = n at hlt
  interval_cases n <;> simp

theorem decodeClassE_error_iff (w : Word) :
    (∃ e, decodeClassE w = .error e) ↔ w.toNat % 256 ∉ [0x9E, 0xA1] := by
  unfold decodeClassE
  rw [fieldK_toNat]
  split <;> simp_all

theorem decodeClassF_error_iff (w : Word) : (∃ e, decodeClassF w = .error e) ↔
    w.toNat % 256 ∉ [0x07, 0x0A, 0x15, 0x18, 0x1E, 0x29, 0x33, 0x55, 0x65] := by
  unfold decodeClassF
  rw [fieldK_toNat]
  split <;> simp_all

/-- A test for the low nibble 0 refuses every other nibble. -/
theorem nibble_test_error_iff (w : Word) (i : Instr) (x : Illegal) :
    (∃ e, (if fieldN w = 0#4 then Except.ok i else Except.error x) = .error e) ↔ w.toNat % 16 ≠ 0 := by
  have hzero : fieldN w = 0#4 ↔ w.toNat % 16 = 0 := by
    rw [← fieldN_toNat]
    exact BitVec.toNat_inj.symm
  split
  next h => simp [hzero.1 h]
  next h => simp [mt hzero.2 h]

/-- Settles O5: of the sixteen classes, six can refuse a word, each by its own list. -/
theorem illegalWordsByClass : Obligations.IllegalWordsByClass := by
  intro w
  have hlt : w.toNat / 4096 < 16 := by have := w.isLt; omega
  unfold decodeWord
  rw [fieldClass_toNat]
  generalize w.toNat / 4096 = c at hlt
  interval_cases c <;>
    simp [decodeClass0_error_iff, decodeClass8_error_iff, decodeClassE_error_iff, decodeClassF_error_iff,
      nibble_test_error_iff, -exists_eq']

/-! The rows of the opcode map (R74, R75). -/

/-- A row fixes the class and, by its mask, nothing else, the low nibble, the low byte or the whole word. -/
abbrev OpcodeRowByMask (r : OpcodeRow) : Prop :=
  (r.mask = 0xFFFF#16 ∧ r.pattern ∈ [0x00E0#16, 0x00EE#16]) ∨
  (r.mask = 0xF000#16 ∧ fieldClass r.pattern ∈ [0x1#4, 0x2#4, 0x3#4, 0x4#4, 0x6#4, 0x7#4, 0xA#4, 0xB#4, 0xC#4, 0xD#4]) ∨
  (r.mask = 0xF00F#16 ∧ (fieldClass r.pattern ∈ [0x5#4, 0x9#4] ∧ fieldN r.pattern = 0#4 ∨
    fieldClass r.pattern = 0x8#4 ∧
      fieldN r.pattern ∈ [0x0#4, 0x1#4, 0x2#4, 0x3#4, 0x4#4, 0x5#4, 0x6#4, 0x7#4, 0xE#4])) ∨
  (r.mask = 0xF0FF#16 ∧ (fieldClass r.pattern = 0xE#4 ∧ fieldK r.pattern ∈ [0x9E#8, 0xA1#8] ∨
    fieldClass r.pattern = 0xF#4 ∧
      fieldK r.pattern ∈ [0x07#8, 0x0A#8, 0x15#8, 0x18#8, 0x1E#8, 0x29#8, 0x33#8, 0x55#8, 0x65#8]))

theorem opcodeMap_byMask : ∀ r ∈ opcodeMap, OpcodeRowByMask r := by decide

/-- Two rows of the map that agree in the bits both masks keep are one row. -/
theorem opcodeMap_exclusive : ∀ r ∈ opcodeMap, ∀ q ∈ opcodeMap,
    r.pattern &&& q.mask = q.pattern &&& r.mask → q = r := by decide

/-- No word selects two rows. -/
theorem opcodeMap_selected_unique {w : Word} {r q : OpcodeRow} (hr : r ∈ opcodeMap) (hq : q ∈ opcodeMap)
    (hwr : w &&& r.mask = r.pattern) (hwq : w &&& q.mask = q.pattern) : q = r := by
  refine opcodeMap_exclusive r hr q hq ?_
  rw [← hwr, ← hwq, BitVec.and_assoc, BitVec.and_assoc, BitVec.and_comm r.mask]

/-! What a masked word says of the word's fields. -/

theorem fieldClass_of_mask_class {w p : Word} (h : w &&& 0xF000#16 = p) : fieldClass w = fieldClass p := by
  rw [← h]
  conv_rhs => rw [word_eq_layoutXK w, Sys2Proof.Laws.TableRow.mask_layoutXK, fieldClass_layoutXK]

theorem fields_of_mask_nibble {w p : Word} (h : w &&& 0xF00F#16 = p) :
    fieldClass w = fieldClass p ∧ fieldN w = fieldN p := by
  rw [← h]
  conv => enter [1, 2]; rw [word_eq_layoutXYN w, Sys2Proof.Laws.TableRow.mask_layoutXY, fieldClass_layoutXYN]
  conv => enter [2, 2]; rw [word_eq_layoutXYN w, Sys2Proof.Laws.TableRow.mask_layoutXY, fieldN_layoutXYN]
  exact ⟨rfl, rfl⟩

theorem fields_of_mask_byte {w p : Word} (h : w &&& 0xF0FF#16 = p) :
    fieldClass w = fieldClass p ∧ fieldK w = fieldK p := by
  rw [← h]
  conv => enter [1, 2]; rw [word_eq_layoutXK w, Sys2Proof.Laws.TableRow.mask_layoutXS, fieldClass_layoutXK]
  conv => enter [2, 2]; rw [word_eq_layoutXK w, Sys2Proof.Laws.TableRow.mask_layoutXS, fieldK_layoutXK]
  exact ⟨rfl, rfl⟩

/-! What the fields of a word must be for it to decode. -/

theorem decodeWord_isOk_of_class {w : Word}
    (h : fieldClass w ∈ [0x1#4, 0x2#4, 0x3#4, 0x4#4, 0x6#4, 0x7#4, 0xA#4, 0xB#4, 0xC#4, 0xD#4]) :
    ∃ i, decodeWord w = .ok i := by
  simp only [List.mem_cons, List.not_mem_nil, or_false] at h
  rcases h with h | h | h | h | h | h | h | h | h | h <;> exact ⟨_, by rw [decodeWord, h]; rfl⟩

theorem decodeWord_isOk_of_zero_nibble {w : Word} (hc : fieldClass w ∈ [0x5#4, 0x9#4]) (hn : fieldN w = 0#4) :
    ∃ i, decodeWord w = .ok i := by
  simp only [List.mem_cons, List.not_mem_nil, or_false] at hc
  rcases hc with hc | hc <;> exact ⟨_, by rw [decodeWord, hc, hn]; rfl⟩

theorem decodeWord_isOk_of_class8 {w : Word} (hc : fieldClass w = 0x8#4)
    (hn : fieldN w ∈ [0x0#4, 0x1#4, 0x2#4, 0x3#4, 0x4#4, 0x5#4, 0x6#4, 0x7#4, 0xE#4]) :
    ∃ i, decodeWord w = .ok i := by
  simp only [List.mem_cons, List.not_mem_nil, or_false] at hn
  rcases hn with hn | hn | hn | hn | hn | hn | hn | hn | hn <;>
    exact ⟨_, by simp only [decodeWord, decodeClass8, hc, hn]; rfl⟩

theorem decodeWord_isOk_of_classE {w : Word} (hc : fieldClass w = 0xE#4) (hk : fieldK w ∈ [0x9E#8, 0xA1#8]) :
    ∃ i, decodeWord w = .ok i := by
  simp only [List.mem_cons, List.not_mem_nil, or_false] at hk
  rcases hk with hk | hk <;> exact ⟨_, by simp only [decodeWord, decodeClassE, hc, hk]; rfl⟩

theorem decodeWord_isOk_of_classF {w : Word} (hc : fieldClass w = 0xF#4)
    (hk : fieldK w ∈ [0x07#8, 0x0A#8, 0x15#8, 0x18#8, 0x1E#8, 0x29#8, 0x33#8, 0x55#8, 0x65#8]) :
    ∃ i, decodeWord w = .ok i := by
  simp only [List.mem_cons, List.not_mem_nil, or_false] at hk
  rcases hk with hk | hk | hk | hk | hk | hk | hk | hk | hk <;>
    exact ⟨_, by simp only [decodeWord, decodeClassF, hc, hk]; rfl⟩

/-- A word that selects a row decodes. -/
theorem decodeWord_isOk_of_selects {w : Word} {r : OpcodeRow} (hr : r ∈ opcodeMap)
    (h : w &&& r.mask = r.pattern) : ∃ i, decodeWord w = .ok i := by
  rcases opcodeMap_byMask r hr with ⟨hm, hp⟩ | ⟨hm, hp⟩ | ⟨hm, hp⟩ | ⟨hm, hp⟩ <;> rw [hm] at h
  · have hw : w = r.pattern := BitVec.and_allOnes.symm.trans h
    rw [← hw] at hp
    simp only [List.mem_cons, List.not_mem_nil, or_false] at hp
    rcases hp with rfl | rfl
    · exact ⟨_, decodeWord_cls⟩
    · exact ⟨_, decodeWord_ret⟩
  · rw [← fieldClass_of_mask_class h] at hp
    exact decodeWord_isOk_of_class hp
  · obtain ⟨hc, hn⟩ := fields_of_mask_nibble h
    rw [← hc, ← hn] at hp
    exact hp.elim (fun hp => decodeWord_isOk_of_zero_nibble hp.1 hp.2) fun hp => decodeWord_isOk_of_class8 hp.1 hp.2
  · obtain ⟨hc, hk⟩ := fields_of_mask_byte h
    rw [← hc, ← hk] at hp
    exact hp.elim (fun hp => decodeWord_isOk_of_classE hp.1 hp.2) fun hp => decodeWord_isOk_of_classF hp.1 hp.2

/-- The encoding of every instruction selects the row of its mnemonic. -/
theorem tableRow_statement (i : Instr) : Sys2Proof.Laws.TableRow.Statement i := by
  open Sys2Proof.Laws.TableRow in
  cases i with
  | cls => exact cls
  | ret => exact ret
  | jp a => exact jp a
  | call a => exact call a
  | seK x k => exact seK x k
  | sneK x k => exact sneK x k
  | seReg x y => exact seReg x y
  | ldK x k => exact ldK x k
  | addK x k => exact addK x k
  | ldReg x y => exact ldReg x y
  | orReg x y => exact orReg x y
  | andReg x y => exact andReg x y
  | xorReg x y => exact xorReg x y
  | addReg x y => exact addReg x y
  | subReg x y => exact subReg x y
  | shrReg x y => exact shrReg x y
  | subnReg x y => exact subnReg x y
  | shlReg x y => exact shlReg x y
  | sneReg x y => exact sneReg x y
  | ldI a => exact ldI a
  | jpV0 x a => exact jpV0 x a
  | rnd x k => exact rnd x k
  | drw x y n => exact drw x y n
  | skp x => exact skp x
  | sknp x => exact sknp x
  | ldVxDt x => exact ldVxDt x
  | ldVxKey x => exact ldVxKey x
  | ldDtVx x => exact ldDtVx x
  | ldStVx x => exact ldStVx x
  | addI x => exact addI x
  | ldF x => exact ldF x
  | ldB x => exact ldB x
  | storeRegs x => exact storeRegs x
  | loadRegs x => exact loadRegs x

/-- Settles O4: a word that decodes is the encoding of its instruction, which selects the row of its mnemonic, and no
word selects two; a word that selects any row decodes. -/
theorem decodeSelectsOneRow : Obligations.DecodeSelectsOneRow := by
  intro w
  cases hd : decodeWord w with
  | error e =>
    refine .inl ⟨⟨e, rfl⟩, fun r hr hsel => ?_⟩
    obtain ⟨i, hi⟩ := decodeWord_isOk_of_selects hr hsel
    rw [hd] at hi
    cases hi
  | ok i =>
    obtain ⟨r, hr, hname, hsel⟩ := tableRow_statement i
    rw [(encodesTo_of_decodeWord hd).1] at hsel
    refine .inr ⟨i, rfl, r, hr, hname, fun q hq => ⟨opcodeMap_selected_unique hr hq hsel, ?_⟩⟩
    rintro rfl
    exact hsel

/-- Settles O1: each word is evaluated, and so its whole path through the decoder. -/
theorem sampleWordsDecode : Obligations.SampleWordsDecode := by
  unfold Obligations.SampleWordsDecode
  decide

end Sys2Proof.Machine

/-! PROOFS. Calls, returns, the skips on registers and the jump with offset (spec/40_flow.md R100, R102, R105 to
R108). -/

namespace Sys2Proof.Machine

/-! Meanings. -/

theorem exec_seReg (x y : RegIdx) (s : State) :
    exec (.seReg x y) s = .next (skipIf (s.reg x == s.reg y) s) := rfl

theorem exec_sneReg (x y : RegIdx) (s : State) :
    exec (.sneReg x y) s = .next (skipIf (s.reg x != s.reg y) s) := rfl

theorem exec_jpV0 (x : RegIdx) (a : Addr12) (s : State) :
    exec (.jpV0 x a) s = .next (s.setPc (jumpTarget x a s)) := rfl

/-- What `RET` can do (R100, R243). -/
theorem exec_ret_cases (s : State) :
    (s.sp.val = 0 ∧ exec .ret s = .next (raise .stackUnderflow s)) ∨
      ∃ _h : s.sp.val ≠ 0, exec .ret s = .next
        ((s.setSp ⟨s.sp.val - 1, by have := s.sp.isLt; omega⟩).setPc
          (s.stack[s.sp.val - 1]'(by have := s.sp.isLt; omega))) := by
  rw [exec, execRet]
  rcases pop_cases s with ⟨h, e⟩ | ⟨h, e⟩
  · exact .inl ⟨h, by rw [e]⟩
  · exact .inr ⟨h, by rw [e]⟩

/-- What `CALL` can do (R102, R242). -/
theorem exec_call_cases (a : Addr12) (s : State) :
    (s.sp.val = 16 ∧ exec (.call a) s = .next (raise .stackOverflow s)) ∨
      ∃ h : s.sp.val < 16, exec (.call a) s = .next
        (((s.setStack (s.stack.set s.sp.val s.pc h)).setSp ⟨s.sp.val + 1, by omega⟩).setPc (a.setWidth 16)) := by
  rw [exec, execCall]
  rcases push_cases s.pc s with ⟨h, e⟩ | ⟨h, e⟩
  · exact .inl ⟨h, by rw [e]⟩
  · exact .inr ⟨h, by rw [e]⟩

/-- What a fault leaves unchanged: everything but `FAULT` (R248). -/
theorem raise_frame (c : FaultCause) (s : State) : { raise c s with fault := s.fault } = s := rfl

/-- What any instruction does that ends in a fault: the record is latched and nothing else changes (R248). -/
theorem exec_raise_spec {i : Instr} {s : State} {c : FaultCause} (hexec : exec i s = .next (raise c s)) :
    ∃ t, exec i s = .next t ∧ t.fault = some ⟨c, s.fetchWord, s.fetchAddr⟩ ∧ { t with fault := s.fault } = s :=
  ⟨raise c s, hexec, raise_fault c s, raise_frame c s⟩

/-- Settles O6: the two cases of a pop. -/
theorem retPopsOrUnderflows : Obligations.RetPopsOrUnderflows := by
  refine ⟨decodeWord_ret, fun s => ?_⟩
  rcases exec_ret_cases s with ⟨h0, e⟩ | ⟨h0, e⟩
  · exact ⟨fun h => absurd h0 (by omega), fun _ => exec_raise_spec e⟩
  · exact ⟨fun _ => ⟨_, e, rfl, rfl, rfl⟩, fun h => absurd h h0⟩

/-- Settles O8: the two cases of a push. -/
theorem callPushesOrOverflows : Obligations.CallPushesOrOverflows := by
  intro a
  refine ⟨decodeWord_call a, fun s => ?_⟩
  rcases exec_call_cases a s with ⟨h16, e⟩ | ⟨h16, e⟩
  · exact ⟨fun h => absurd h16 (by omega), fun _ => exec_raise_spec e⟩
  · refine ⟨fun _ => ⟨_, e, rfl, fun j hj => ?_, BitVec.toNat_setWidth_of_le (by decide), rfl⟩,
      fun h => absurd h16 (by omega)⟩
    rw [State.setPc_stack, State.setSp_stack, State.setStack_stack, Vector.getElem_set]
    simp only [@eq_comm _ j]

/-- Settles O10: both skips are `skipIf` on the comparison of two registers; any low nibble but 0 is refused (R76). -/
theorem skipOnRegisters : Obligations.SkipOnRegisters := by
  intro x y
  refine ⟨decodeWord_seReg x y, decodeWord_sneReg x y, fun n hn => ⟨?_, ?_⟩, fun s =>
    ⟨exec_skip_spec (exec_seReg x y s) (byte_beq_iff_toNat_eq _ _),
      exec_skip_spec (exec_sneReg x y s) (byte_bne_iff_toNat_ne _ _)⟩⟩
  · exact (decodeWord_class5 x y n).trans (if_neg hn)
  · exact (decodeWord_class9 x y n).trans (if_neg hn)

theorem addrTopNibble_toNat (a : Addr12) : (addrTopNibble a).toNat = a.toNat / 256 := by
  have hlt := a.isLt
  rw [addrTopNibble, BitVec.extractLsb'_toNat, Nat.shiftRight_eq_div_pow]
  omega

/-- The target does not wrap: 4095 and 255 fit 16 bits. -/
theorem jumpTarget_toNat (x : RegIdx) (a : Addr12) (s : State) :
    (jumpTarget x a s).toNat = (if s.schip then s.reg x else s.reg 0).toNat + a.toNat := by
  unfold jumpTarget
  generalize (if s.schip = true then s.reg x else s.reg 0) = b
  bv_omega

/-- Settles O11: one write of `PC`, with the sum that does not wrap. -/
theorem jumpWithOffset : Obligations.JumpWithOffset := by
  intro x a hx
  obtain rfl : x = addrTopNibble a := BitVec.eq_of_toNat_eq (hx.trans (addrTopNibble_toNat a).symm)
  exact ⟨decodeWord_jpV0 a, fun s =>
    ⟨_, exec_jpV0 _ a s, jumpTarget_toNat _ a s, State.setPc_frame _ s⟩⟩

end Sys2Proof.Machine

/-! PROOFS. The register copy and the random byte (spec/41_alu.md R122, R131). -/

namespace Sys2Proof.Machine

theorem exec_ldReg (x y : RegIdx) (s : State) : exec (.ldReg x y) s = .next (s.setReg x (s.reg y)) := rfl

theorem exec_rnd (x : RegIdx) (k : Byte) (s : State) :
    exec (.rnd x k) s = .next ((s.setReg x (s.rand &&& k)).countDraw) := rfl

/-- Settles O13: one write of register X, in either mode. -/
theorem copyRegister : Obligations.CopyRegister := by
  intro x y
  exact ⟨decodeWord_ldReg x y, fun s => exec_setReg_spec (exec_ldReg x y s)⟩

/-- Settles O18: one write of register X and one count of the draw. -/
theorem randomUnderMask : Obligations.RandomUnderMask := by
  intro x k
  refine ⟨decodeWord_rnd x k, fun s => ⟨_, exec_rnd x k s, fun r => ?_, rfl, rfl⟩⟩
  rw [State.countDraw_reg, State.reg_setReg]
  simp only [@eq_comm _ r]
  rfl

end Sys2Proof.Machine

/-! PROOFS. Index addition, the transfers between registers and memory, and what memory reads as
(spec/44_index_memory.md R181 to R186, spec/20_memory.md R54 to R62). -/

namespace Sys2Proof.Machine

/-! Addition to `I` (R181, R246). -/

/-- What `ADD I,Vx` can do. -/
theorem exec_addI_cases (x : RegIdx) (s : State) :
    (s.i.toNat + (s.reg x).toNat > 0xFFFF ∧
        exec (.addI x) s = .next (raise (.indexOverflow (s.i.toNat + (s.reg x).toNat)) s)) ∨
      (s.i.toNat + (s.reg x).toNat ≤ 0xFFFF ∧
        exec (.addI x) s = .next (writeIndexFlag (s.i.toNat + (s.reg x).toNat)
          (s.setI (BitVec.ofNat 16 (s.i.toNat + (s.reg x).toNat))))) := by
  simp only [exec, execAddI]
  by_cases h : s.i.toNat + (s.reg x).toNat > 0xFFFF
  · exact .inl ⟨h, by rw [if_pos h]⟩
  · exact .inr ⟨Nat.le_of_not_lt h, by rw [if_neg h]⟩

/-- Settles O31: the two cases of the addition, the flag read off the sum. -/
theorem addToIndex : Obligations.AddToIndex := by
  intro x
  refine ⟨decodeWord_addI x, fun s => ?_⟩
  rcases exec_addI_cases x s with ⟨hgt, e⟩ | ⟨hle, e⟩
  · exact ⟨fun h => absurd hgt (Nat.not_lt_of_le h), fun _ => exec_raise_spec e⟩
  · have hsum : (BitVec.ofNat 16 (s.i.toNat + (s.reg x).toNat)).toNat = s.i.toNat + (s.reg x).toNat :=
      Nat.mod_eq_of_lt (Nat.lt_succ_of_le hle)
    refine ⟨fun _ => ⟨_, e, hsum, fun r => ?_, rfl⟩, fun h => absurd h (Nat.not_lt_of_le hle)⟩
    rw [reg_writeIndexFlag, writeIndexFlag_i, State.setI_i, hsum, State.setI_reg, State.setI_reg]
    by_cases hr : r = vf
    · subst hr
      simp [Config.memSize]
    · simp [hr, Ne.symm hr]

/-! Stores of bytes that may reach the end of memory (R56, R57). -/

/-- The stored digits are the significant ones (R183). -/
theorem decimalDigits_eq (b : Byte) : decimalDigits b = significantDigits b := by
  have hlt := b.isLt
  have hhundreds : BitVec.ofNat 8 (b.toNat / 100) = b / 100 := by
    apply BitVec.eq_of_toNat_eq; simp; omega
  have htens : BitVec.ofNat 8 (b.toNat / 10 % 10) = b / 10 % 10 := by
    apply BitVec.eq_of_toNat_eq; simp; omega
  have hones : BitVec.ofNat 8 (b.toNat % 10) = b % 10 := by
    apply BitVec.eq_of_toNat_eq; simp; omega
  unfold decimalDigits significantDigits
  simp only [hhundreds, htens, hones]
  rcases (show b.toNat < 10 ∨ (10 ≤ b.toNat ∧ b.toNat < 100) ∨ 100 ≤ b.toNat by omega) with h | ⟨h, h'⟩ | h
  · have hb : b % 10 = b := by
      apply BitVec.eq_of_toNat_eq; simp; omega
    rw [if_neg (by omega), if_neg (by omega), if_pos h, hb]
  · have hb : b / 10 % 10 = b / 10 := by
      apply BitVec.eq_of_toNat_eq; simp; omega
    rw [if_neg (by omega), if_pos h, if_neg (by omega), if_pos h', hb]
  · rw [if_pos h, if_neg (by omega), if_neg (by omega)]

/-- A write that stops at the end of memory: byte `j` is at `a + j` while that is at most 0xFFF. -/
theorem Memory.read_writeBytes_take (m : Memory) (a : Nat) (bs : List Byte) (k : Nat) :
    (m.writeBytes a (bs.take (4096 - a))).read k =
      if a ≤ k ∧ k ≤ 0xFFF ∧ k - a < bs.length then bs.getD (k - a) 0 else m.read k := by
  rw [Memory.read_writeBytes]
  by_cases h : a ≤ k ∧ k ≤ 0xFFF ∧ k - a < bs.length
  · rw [dif_pos (by rw [List.length_take]; omega), if_pos h, List.getElem_take, List.getD_eq_getElem _ _ h.2.2]
  · rw [dif_neg (by rw [List.length_take]; omega), if_neg h]

/-- What a store of at least one byte does, whole: the bytes inside memory are stored, and a fault is latched when one is
outside. -/
theorem storeBytes_spec (a : Nat) {bs : List Byte} (hbs : bs ≠ []) (s : State) :
    storeBytes a bs s = { s with
      mem := s.mem.writeBytes a (bs.take (4096 - a))
      fault := if a + bs.length ≤ 4096 then s.fault
        else some ⟨.memBounds (max a 4096), s.fetchWord, s.fetchAddr⟩ } := by
  rw [storeBytes_eq]
  by_cases h : a + bs.length ≤ 4096
  · rw [if_pos (.inl h), if_pos h, List.take_of_length_le (by omega)]
    rfl
  · rw [if_neg (not_or.2 ⟨h, hbs⟩), if_neg h]
    rfl

theorem exec_ldB (x : RegIdx) (s : State) :
    exec (.ldB x) s = .next (storeBytes s.i.toNat (significantDigits (s.reg x)) s) := by
  rw [← decimalDigits_eq]
  rfl

theorem significantDigits_ne_nil (b : Byte) : significantDigits b ≠ [] := by
  unfold significantDigits
  split_ifs <;> exact List.cons_ne_nil _ _

/-- Settles O32: a byte store of the digits from `I`. -/
theorem storeDecimalDigits : Obligations.StoreDecimalDigits := by
  intro x
  refine ⟨decodeWord_ldB x, fun s => ⟨_, exec_ldB x s, ?_⟩⟩
  rw [storeBytes_spec _ (significantDigits_ne_nil _)]
  exact ⟨fun a => Memory.read_writeBytes_take _ _ _ a, rfl, rfl⟩

/-! The register blocks (R184, R185). -/

theorem blockAddr_zero (s : State) : blockAddr 0 s = s.i.toNat := by
  rw [blockAddr, ite_self]
  rfl

/-- Legacy mode advances `I` by the bytes transferred; it does not wrap, since they end at the end of memory. -/
theorem blockIndex_toNat (i : Word) (schip : Bool) {count : Nat} :
    (if schip then i else i + BitVec.ofNat 16 (reached i.toNat count)).toNat =
      if schip then i.toNat else i.toNat + min count (4096 - i.toNat) := by
  have hlt := i.isLt
  cases schip
  · simp only [reached, Bool.false_eq_true, if_false, BitVec.toNat_add, BitVec.toNat_ofNat]
    omega
  · rfl

theorem exec_storeRegs (x : RegIdx) (s : State) : exec (.storeRegs x) s = .next (storeBlock (x.toNat + 1) 0 s) := rfl

theorem exec_loadRegs (x : RegIdx) (s : State) : exec (.loadRegs x) s = .next (loadBlock (x.toNat + 1) 0 s) := rfl

/-- The bytes of the first registers, as many as lie inside memory, are where their registers' numbers say. -/
theorem read_writeBytes_regsFrom (s : State) (a count k : Nat) :
    (s.mem.writeBytes a (regsFrom s 0 (reached a count))).read k =
      if a ≤ k ∧ k ≤ 0xFFF ∧ k - a < count then s.reg (BitVec.ofNat 4 (k - a)) else s.mem.read k := by
  have hlen : (regsFrom s 0 (reached a count)).length = min count (4096 - a) := by
    simp [regsFrom, reached]
  rw [Memory.read_writeBytes]
  by_cases h : a ≤ k ∧ k ≤ 0xFFF ∧ k - a < count
  · rw [dif_pos (by omega), if_pos h]
    simp [regsFrom]
  · rw [dif_neg (by omega), if_neg h]

/-- What the register store does, whole. -/
theorem storeBlock_spec (count : Nat) (s : State) :
    storeBlock count 0 s = { s with
      mem := s.mem.writeBytes s.i.toNat (regsFrom s 0 (reached s.i.toNat count))
      i := if s.schip then s.i else s.i + BitVec.ofNat 16 (reached s.i.toNat count)
      fault := if s.i.toNat + count ≤ 4096 ∨ count = 0 then s.fault
        else some ⟨.memBounds (max s.i.toNat 4096), s.fetchWord, s.fetchAddr⟩ } := by
  rw [storeBlock_eq]
  simp only [blockAddr_zero]
  by_cases h : s.i.toNat + count ≤ 4096 ∨ count = 0
  · rw [if_neg (by unfold reached; omega), if_pos h]
    rfl
  · rw [if_pos (by unfold reached; omega), if_neg h]
    rfl

/-- Settles O33: the store of the first registers from `I`. -/
theorem storeRegisterBlock : Obligations.StoreRegisterBlock := by
  intro x
  refine ⟨decodeWord_storeRegs x, fun s => ⟨_, exec_storeRegs x s, ?_⟩⟩
  rw [storeBlock_spec]
  refine ⟨fun a => ?_, blockIndex_toNat _ _, ?_, rfl⟩
  · rw [read_writeBytes_regsFrom]
    simp only [Nat.lt_succ_iff]
  · simp only [Nat.succ_ne_zero, or_false, Nat.add_assoc]

/-- What the register load does, whole. -/
theorem loadBlock_spec {count : Nat} (hcount : count ≤ 16) (s : State) :
    ∃ v : Vector Byte 16,
      loadBlock count 0 s = { s with
        v := v
        i := if s.schip then s.i else s.i + BitVec.ofNat 16 (reached s.i.toNat count)
        fault := if s.i.toNat + count ≤ 4096 ∨ count = 0 then s.fault
          else some ⟨.memBounds (max s.i.toNat 4096), s.fetchWord, s.fetchAddr⟩ } ∧
      ∀ r : RegIdx, ({ s with v := v } : State).reg r =
        if r.toNat < count ∧ s.i.toNat + r.toNat ≤ 0xFFF then s.mem.read (s.i.toNat + r.toNat) else s.reg r := by
  obtain ⟨t, hframe, hi, hreg, e⟩ := loadBlock_eq count 0 s (by omega)
  rw [blockAddr_zero] at hi hreg e
  have ht : t = { s with v := t.v, i := t.i } := congrArg (fun u : State => { u with v := t.v, i := t.i }) hframe
  refine ⟨t.v, ?_, fun r => (hreg r).trans (if_congr (by unfold reached; omega) (by rw [Nat.sub_zero]) rfl)⟩
  rw [e, ← hi]
  by_cases h : s.i.toNat + count ≤ 4096 ∨ count = 0
  · rw [if_neg (by unfold reached; omega), if_pos h]
    exact ht
  · rw [if_pos (by unfold reached; omega), if_neg h]
    exact congrArg (raise (.memBounds (max s.i.toNat 4096))) ht

/-- Settles O34: the load of the first registers from `I`. -/
theorem loadRegisterBlock : Obligations.LoadRegisterBlock := by
  intro x
  refine ⟨decodeWord_loadRegs x, fun s => ⟨_, exec_loadRegs x s, ?_⟩⟩
  obtain ⟨v, e, hreg⟩ := loadBlock_spec (show x.toNat + 1 ≤ 16 from x.isLt) s
  rw [e]
  refine ⟨fun r => (hreg r).trans ?_, blockIndex_toNat _ _, ?_, rfl⟩
  · simp only [Nat.lt_succ_iff]
  · simp only [Nat.succ_ne_zero, or_false, Nat.add_assoc]

/-! What memory reads as. -/

/-- With rising addresses no earlier entry hides a listed one. -/
theorem Memory.read_of_mem {m : Memory} (hm : m.Pairwise fun c d => c.1 < d.1) {c : Host.Cell} (hc : c ∈ m) :
    m.read c.1 = c.2 := by
  induction m with
  | nil => cases hc
  | cons d m ih =>
    obtain ⟨hd, hm⟩ := List.pairwise_cons.1 hm
    rw [Memory.read_cons]
    rcases List.mem_cons.1 hc with rfl | hc
    · exact if_pos rfl
    · rw [if_neg (hd c hc).ne, ih hm hc]

/-- A canonical memory lists exactly the bytes that do not read as the reset image. -/
theorem Memory.mem_iff_read {m : Memory} (hm : m.wf) (c : Host.Cell) :
    c ∈ m ↔ c.1 < Config.memSize ∧ c.2 ≠ resetByte c.1 ∧ m.read c.1 = c.2 := by
  constructor
  · intro hc
    obtain ⟨hlt, hne⟩ := hm.2 c hc
    exact ⟨hlt, hne, Memory.read_of_mem hm.1 hc⟩
  · rintro ⟨-, hne, hread⟩
    by_contra hc
    refine hne (hread.symm.trans (Memory.read_of_unlisted fun d hd haddr => hc ?_))
    have hbyte : d.2 = c.2 := by rw [← Memory.read_of_mem hm.1 hd, haddr, hread]
    rwa [← Prod.ext haddr hbyte]

/-- Settles O35: both memories list the same cells, in the one rising order. -/
theorem canonicalMemoryIsUnique : Obligations.CanonicalMemoryIsUnique := by
  intro m n hm hn hread
  have hmem : ∀ c, c ∈ m ↔ c ∈ n := by
    intro c
    rw [Memory.mem_iff_read hm, Memory.mem_iff_read hn]
    exact and_congr_right fun hc => by rw [hread c.1 hc]
  have hnodup : ∀ {l : Memory}, l.wf → l.Nodup := fun h => h.1.imp fun hlt heq => hlt.ne (congrArg Prod.fst heq)
  have hperm : m.Perm n := (List.perm_ext_iff_of_nodup (hnodup hm) (hnodup hn)).2 hmem
  exact hperm.eq_of_pairwise (fun _ _ _ _ hab hba => absurd hab hba.asymm) hm.1 hn.1

theorem wordOfBytes_toNat (hi lo : Byte) : (wordOfBytes hi lo).toNat = 256 * hi.toNat + lo.toNat := by
  have hlt := lo.isLt
  rw [wordOfBytes, BitVec.toNat_append, ← Nat.shiftLeft_add_eq_or_of_lt hlt, Nat.shiftLeft_eq, Nat.mul_comm]

/-- Settles O36: the fetch reads both bytes from the memory the store left (R62). -/
theorem storeIsSeenByNextFetch : Obligations.StoreIsSeenByNextFetch := by
  intro s t a b hstore hpc
  obtain rfl : s.setMem (s.mem.write a b) = t := by
    rcases memWrite_cases a b s with ⟨_, e⟩ | ⟨_, e⟩
    · rw [e] at hstore; cases hstore
    · rw [e] at hstore; cases hstore; rfl
  rcases fetch_cases (s.setMem (s.mem.write a b)) with ⟨h, _⟩ | ⟨h, _⟩ | ⟨_, e⟩
  · exact absurd h (by simp; omega)
  · exact absurd h (by simp; omega)
  · refine ⟨_, e, ?_, ?_⟩
    · rw [State.setPc_pc, State.setMem_pc]
      bv_omega
    · rw [State.setPc_fetchWord, State.setFetched_fetchWord, wordOfBytes_toNat, State.setMem_mem,
        State.setMem_pc, Memory.read_write, Memory.read_write]

end Sys2Proof.Machine

/-! PROOFS. The key latch (spec/43_keys_timers.md R160 to R162). -/

namespace Sys2Proof.Machine

/-- What a key operand can be (R160, R245). -/
theorem keyOperand_cases (b : Byte) :
    (b.toNat > 15 ∧ keyOperand b = .error (.keyIndex b)) ∨
      (b.toNat ≤ 15 ∧ keyOperand b = .ok (b.setWidth 4)) := by
  by_cases h : b.toNat > 15
  · exact .inl ⟨h, if_pos h⟩
  · exact .inr ⟨Nat.le_of_not_lt h, if_neg h⟩

theorem keyOperand_of_toNat_eq {b : Byte} {k : RegIdx} (h : b.toNat = k.toNat) : keyOperand b = .ok k := by
  have hk := k.isLt
  rcases keyOperand_cases b with ⟨hgt, _⟩ | ⟨_, e⟩
  · omega
  · rw [e]
    congr 1
    apply BitVec.eq_of_toNat_eq
    rw [BitVec.toNat_setWidth]
    omega

/-- What either key skip does with the key its operand names, `test` saying when it skips. -/
abbrev keySkip (test : KeyState → Bool) (x : RegIdx) (s : State) : State :=
  match keyOperand (s.reg x) with
  | .error c => raise c s
  | .ok k => skipIf (test (s.keyAt k)) s

theorem exec_skp (x : RegIdx) (s : State) : exec (.skp x) s = .next (keySkip (· == .pressed) x s) := rfl

theorem exec_sknp (x : RegIdx) (s : State) : exec (.sknp x) s = .next (keySkip (· != .pressed) x s) := rfl

/-- The two cases of a key skip: a fault, or a skip on the state of the key (R160, R161). -/
theorem keySkip_cases (test : KeyState → Bool) (x : RegIdx) (s : State) :
    ((s.reg x).toNat > 15 ∧ keySkip test x s = raise (.keyIndex (s.reg x)) s) ∨
      ((s.reg x).toNat ≤ 15 ∧ keySkip test x s = skipIf (test (s.keyAt ((s.reg x).setWidth 4))) s) := by
  unfold keySkip
  rcases keyOperand_cases (s.reg x) with ⟨h, e⟩ | ⟨h, e⟩
  · exact .inl ⟨h, by rw [e]⟩
  · exact .inr ⟨h, by rw [e]⟩

theorem keySkip_of_key {test : KeyState → Bool} {x k : RegIdx} {s : State} (h : (s.reg x).toNat = k.toNat) :
    keySkip test x s = skipIf (test (s.keyAt k)) s := by
  rw [keySkip, keyOperand_of_toNat_eq h]

theorem keySkip_of_no_key {test : KeyState → Bool} {x : RegIdx} {s : State} (h : (s.reg x).toNat > 15) :
    keySkip test x s = raise (.keyIndex (s.reg x)) s := by
  rcases keySkip_cases test x s with ⟨_, e⟩ | ⟨hle, _⟩
  · exact e
  · exact absurd h (Nat.not_lt_of_le hle)

/-- Settles O27: both skips test the key that the register names, or fault on the register. -/
theorem skipOnKey : Obligations.SkipOnKey := by
  intro x
  refine ⟨decodeWord_skp x, decodeWord_sknp x, fun s => ⟨fun k hk => ⟨?_, ?_⟩, ?_⟩⟩
  · exact exec_skip_spec ((exec_skp x s).trans (by rw [keySkip_of_key hk])) beq_iff_eq
  · exact exec_skip_spec ((exec_sknp x s).trans (by rw [keySkip_of_key hk])) bne_iff_ne
  · rintro h i (rfl | rfl)
    · exact exec_raise_spec ((exec_skp x s).trans (by rw [keySkip_of_no_key h]))
    · exact exec_raise_spec ((exec_sknp x s).trans (by rw [keySkip_of_no_key h]))

/-! The wait for a key (R162). -/

theorem allKeys_ascending : allKeys.Pairwise fun j k => j.toNat < k.toNat := by decide

/-- The key taken is the lowest one that holds `JustReleased`. -/
theorem firstReleased_eq_some {s : State} {k : RegIdx} (hk : s.keyAt k = .justReleased)
    (hlow : ∀ j : RegIdx, j.toNat < k.toNat → s.keyAt j ≠ .justReleased) : firstReleased s = some k := by
  obtain ⟨before, after, hsplit⟩ := List.mem_iff_append.1 (mem_allKeys k)
  refine List.find?_eq_some_iff_append.2 ⟨beq_iff_eq.2 hk, before, after, hsplit, fun j hj => ?_⟩
  have hasc := allKeys_ascending
  rw [hsplit] at hasc
  have hjk : j.toNat < k.toNat := (List.pairwise_append.1 hasc).2.2 j hj k (by simp)
  simpa using hlow j hjk

theorem firstReleased_eq_none {s : State} (h : ∀ k, s.keyAt k ≠ .justReleased) : firstReleased s = none :=
  List.find?_eq_none.2 fun k _ => by simpa using h k

/-- What `LD Vx,KEY` can do. -/
theorem exec_ldVxKey_cases (x : RegIdx) (s : State) :
    (∃ k, firstReleased s = some k ∧
        exec (.ldVxKey x) s = .next ((s.setKey k .released).setReg x (k.setWidth 8))) ∨
      (firstReleased s = none ∧ exec (.ldVxKey x) s = .next (s.setPc (s.pc - 2))) := by
  rw [exec, execLdVxKey]
  cases h : firstReleased s with
  | some k => exact .inl ⟨k, rfl, rfl⟩
  | none => exact .inr ⟨rfl, rfl⟩

/-- Settles O28: the lowest released key is taken, or `PC` put back. -/
theorem waitForKey : Obligations.WaitForKey := by
  intro x
  refine ⟨decodeWord_ldVxKey x, fun s => ⟨fun k hk hlow => ?_, fun hnone => ?_⟩⟩
  · have hfirst := firstReleased_eq_some hk hlow
    rcases exec_ldVxKey_cases x s with ⟨j, hj, e⟩ | ⟨hnone, _⟩
    · obtain rfl : j = k := Option.some.inj (hj.symm.trans hfirst)
      refine ⟨_, e, fun r => ?_, fun i => ?_, rfl⟩
      · rw [State.reg_setReg, State.setKey_reg, apply_ite BitVec.toNat, BitVec.toNat_setWidth_of_le (by decide)]
        simp only [@eq_comm _ r]
      · rw [State.setReg_keyAt, State.keyAt_setKey]
        simp only [@eq_comm _ i]
    · rw [hnone] at hfirst
      cases hfirst
  · rcases exec_ldVxKey_cases x s with ⟨j, hj, _⟩ | ⟨_, e⟩
    · rw [firstReleased_eq_none hnone] at hj
      cases hj
    · exact ⟨_, e, rfl, rfl⟩

end Sys2Proof.Machine

/-! PROOFS. Clear and draw (spec/42_display.md R140 to R153). -/

namespace Sys2Proof.Machine

theorem exec_cls (s : State) : exec .cls s = .next ((s.setDisp Display.blank).setDrew false) := rfl

/-- Settles O19: the blank grid and the output `drew` are all that is written. -/
theorem clearScreen : Obligations.ClearScreen :=
  ⟨decodeWord_cls, fun s => ⟨_, exec_cls s, fun p q _ _ => Display.get_blank p q, rfl, rfl⟩⟩

/-! Where a sprite starts (R142). -/

theorem startColumn_eq (b : Byte) : startColumn b = b.toNat % 64 :=
  Nat.and_two_pow_sub_one_eq_mod b.toNat 6

theorem startRow_eq (b : Byte) : startRow b = b.toNat % 32 :=
  Nat.and_two_pow_sub_one_eq_mod b.toNat 5

theorem shownRows_le (b : Byte) (n : BitVec 4) : b.toNat % 32 + 0 + shownRows (b.toNat % 32) n ≤ Config.dispH := by
  have : b.toNat % 32 < 32 := Nat.mod_lt _ (by decide)
  unfold shownRows
  show _ ≤ 32
  omega

/-! `DRW` by the rows it reaches (R141, R144, R248). -/

/-- How many rows a draw of height `n` applies: those shown that lie in memory. -/
def drawnRows (y : RegIdx) (n : BitVec 4) (s : State) : Nat :=
  min (shownRows ((s.reg y).toNat % 32) n) (4096 - s.i.toNat)

/-- The blit after `k` rows of the sprite at the coordinates in the registers. -/
def spriteBlit (x y : RegIdx) (k : Nat) (s : State) : Blit :=
  drawRows s ((s.reg x).toNat % 64) ((s.reg y).toNat % 32) k 0 ⟨s.disp, false, false⟩

/-- The state with the grid and `VF` as a blit leaves them (R146, R147). -/
def applyBlit (b : Blit) (s : State) : State := (s.setDisp b.grid).setFlag b.hit

theorem drawnRows_le_shown (y : RegIdx) (n : BitVec 4) (s : State) :
    drawnRows y n s ≤ shownRows ((s.reg y).toNat % 32) n := Nat.min_le_left _ _

theorem drawnRows_on_display (y : RegIdx) (n : BitVec 4) (s : State) :
    (s.reg y).toNat % 32 + 0 + drawnRows y n s ≤ Config.dispH :=
  (Nat.add_le_add_left (drawnRows_le_shown y n s) _).trans (shownRows_le _ n)

theorem drawnRows_of_inMemory {y : RegIdx} {n : BitVec 4} {s : State}
    (h : s.i.toNat + shownRows ((s.reg y).toNat % 32) n ≤ 4096) :
    drawnRows y n s = shownRows ((s.reg y).toNat % 32) n := by
  unfold drawnRows
  omega

/-- What `DRW` can do: every shown row is drawn and `drew` set, or the first one beyond memory faults. -/
theorem exec_drw_cases (x y : RegIdx) (n : BitVec 4) (s : State) :
    (drawnRows y n s = shownRows ((s.reg y).toNat % 32) n ∧
        exec (.drw x y n) s = .next ((applyBlit (spriteBlit x y (drawnRows y n s) s) s).setDrew
          (if s.rflick then (spriteBlit x y (drawnRows y n s) s).new else true))) ∨
      (drawnRows y n s < shownRows ((s.reg y).toNat % 32) n ∧
        exec (.drw x y n) s = .next (raise (.memBounds (s.i.toNat + drawnRows y n s))
          (applyBlit (spriteBlit x y (drawnRows y n s) s) s))) := by
  have hy : (s.reg y).toNat % 32 < 32 := Nat.mod_lt _ (by decide)
  have hrows : rowsReached s ((s.reg y).toNat % 32) n.toNat 0 = drawnRows y n s := by
    show min _ (min (32 - _) (4096 - (s.i.toNat + 0))) = _
    unfold drawnRows shownRows
    omega
  have haddr : dataAddr (0 + drawnRows y n s) s = s.i.toNat + drawnRows y n s := by
    rw [dataAddr, Nat.zero_add]
  rw [exec, execDrw, blitRows_eq, startColumn_eq, startRow_eq, hrows, haddr]
  have hle := drawnRows_le_shown y n s
  by_cases h : drawnRows y n s < shownRows ((s.reg y).toNat % 32) n
  · refine .inr ⟨h, ?_⟩
    rw [if_pos (by unfold shownRows at h; show _ ∧ _ < 32; omega)]
    rfl
  · refine .inl ⟨by omega, ?_⟩
    rw [if_neg (by unfold shownRows at h hle; show ¬(_ ∧ _ < 32); omega)]
    rfl

/-- Either end of `DRW` leaves the grid and `VF` of the rows drawn. -/
theorem exec_drw_applies {x y : RegIdx} {n : BitVec 4} {s t : State} (h : exec (.drw x y n) s = .next t) :
    { t with drew := s.drew, fault := s.fault } = applyBlit (spriteBlit x y (drawnRows y n s) s) s := by
  rcases exec_drw_cases x y n s with ⟨_, e⟩ | ⟨_, e⟩ <;> rw [e] at h <;> cases h <;> rfl

theorem exec_drw_inMemory (x : RegIdx) {y : RegIdx} {n : BitVec 4} {s : State}
    (h : s.i.toNat + shownRows ((s.reg y).toNat % 32) n ≤ 4096) :
    exec (.drw x y n) s = .next
      ((applyBlit (spriteBlit x y (shownRows ((s.reg y).toNat % 32) n) s) s).setDrew
        (if s.rflick then (spriteBlit x y (shownRows ((s.reg y).toNat % 32) n) s).new else true)) := by
  rcases exec_drw_cases x y n s with ⟨hk, e⟩ | ⟨hk, _⟩
  · rw [e, hk]
  · rw [drawnRows_of_inMemory h] at hk
    exact absurd hk (lt_irrefl _)

theorem applyBlit_reg_vf (b : Blit) (s : State) : (applyBlit b s).reg 0xF = flagByte b.hit :=
  State.reg_setFlag_vf _ _

theorem applyBlit_reg_of_ne (b : Blit) (s : State) {r : RegIdx} (hr : r ≠ 0xF#4) :
    (applyBlit b s).reg r = s.reg r := State.reg_setReg_of_ne _ _ hr

theorem applyBlit_cell (b : Blit) (s : State) (p q : Nat) : (applyBlit b s).cell p q = Display.get b.grid p q := rfl

theorem flagByte_eq_zero_or_one (b : Bool) : flagByte b = 0 ∨ flagByte b = 1 := by
  cases b
  · exact .inl rfl
  · exact .inr rfl

theorem flagByte_eq_one_iff (b : Bool) : flagByte b = 1 ↔ b = true := by
  cases b <;> decide

/-- The cells that a sprite leaves alone: those outside its rows and its columns. -/
theorem spriteBlit_get_outside (x y : RegIdx) (k : Nat) (s : State) {p q : Nat}
    (h : q < (s.reg y).toNat % 32 ∨ (s.reg y).toNat % 32 + k ≤ q ∨
      p < (s.reg x).toNat % 64 ∨ (s.reg x).toNat % 64 + 7 < p) :
    Display.get (spriteBlit x y k s).grid p q = s.cell p q := by
  have hx : (s.reg x).toNat % 64 < 64 := Nat.mod_lt _ (by decide)
  refine drawRows_get_of_ne _ _ _ _ _ _ _ _ ?_
  rcases h with h | h | h
  · exact .inl h
  · exact .inr (.inl h)
  · refine .inr (.inr fun j hj => ?_)
    show min _ 63 ≠ p
    omega

/-- Settles O20: with every shown row in memory the draw ends in `drew`, and changes no cell outside its box. -/
theorem drawCompletesAndFrame : Obligations.DrawCompletesAndFrame := by
  intro x y n
  refine ⟨decodeWord_drw x y n, fun s hmem => ⟨_, exec_drw_inMemory x hmem, fun r hr => ?_, ?_, fun hr => ?_,
    fun p q hout => ?_, rfl⟩⟩
  · exact applyBlit_reg_of_ne _ s hr
  · rw [State.setDrew_reg, applyBlit_reg_vf]
    exact flagByte_eq_zero_or_one _
  · rw [State.setDrew_drew, hr]
    rfl
  · exact spriteBlit_get_outside x y _ s hout

/-! What a draw does to each cell (R146, R149, R152). -/

/-- Whether a sprite of `k` rows toggles cell `(p, q)`. -/
def spriteToggles (x y : RegIdx) (k : Nat) (s : State) (p q : Nat) : Bool :=
  decide ((s.reg y).toNat % 32 ≤ q ∧ q < (s.reg y).toNat % 32 + k) &&
    oddBits ((s.reg x).toNat % 64) (s.mem.read (s.i.toNat + (q - (s.reg y).toNat % 32))) p

theorem spriteBlit_on (x y : RegIdx) {k : Nat} (s : State) (p q : Nat)
    (hk : (s.reg y).toNat % 32 + 0 + k ≤ Config.dispH) :
    gridOn (spriteBlit x y k s).grid p q = xor (s.on p q) (spriteToggles x y k s p q) := by
  rw [spriteBlit, drawRows_on _ _ _ _ _ _ _ _ hk, bitsToggle_eq_oddBits]
  rfl

/-- The intensity a cell of the box ends with. -/
theorem spriteBlit_get (x y : RegIdx) {k : Nat} (s : State) {p q : Nat}
    (hk : (s.reg y).toNat % 32 + 0 + k ≤ Config.dispH) (hp : p < 64) (hq : (s.reg y).toNat % 32 ≤ q)
    (hq' : q < (s.reg y).toNat % 32 + k) :
    Display.get (spriteBlit x y k s).grid p q =
      intensityAfter s.trace ((s.reg x).toNat % 64) (s.mem.read (s.i.toNat + (q - (s.reg y).toNat % 32))) p
        (s.cell p q) :=
  drawRows_get _ _ _ _ _ _ hk hp hq hq'

/-! The scan of one row over one cell (`bitStep` of Laws/Blit). -/

theorem bitStep_of_ne {trace : Bool} {x0 : Nat} {row : Byte} {p c : Nat} (v : Byte) (h : bitColumn x0 c ≠ p) :
    bitStep trace x0 row p v c = v := if_neg h

theorem foldl_bitStep_of_ne {trace : Bool} {x0 : Nat} {row : Byte} {p : Nat} (cs : List Nat) (v : Byte)
    (h : ∀ c ∈ cs, bitColumn x0 c ≠ p) : cs.foldl (bitStep trace x0 row p) v = v := by
  induction cs with
  | nil => rfl
  | cons c cs ih =>
    rw [List.foldl_cons, bitStep_of_ne v (h c List.mem_cons_self), ih fun d hd => h d (List.mem_cons_of_mem c hd)]

/-- Without trace a cell that some bit goes to, or that held 0 or 255, ends with 0 or 255. -/
theorem foldl_bitStep_twoValued (x0 : Nat) (row : Byte) (p : Nat) (cs : List Nat) (v : Byte)
    (h : (v = 0 ∨ v = 255#8) ∨ ∃ c ∈ cs, bitColumn x0 c = p) :
    cs.foldl (bitStep false x0 row p) v = 0 ∨ cs.foldl (bitStep false x0 row p) v = 255#8 := by
  induction cs generalizing v with
  | nil => simpa using h
  | cons c cs ih =>
    refine ih _ ?_
    by_cases hc : bitColumn x0 c = p
    · left
      rw [bitStep, if_pos hc]
      split
      · exact .inr rfl
      · exact .inl rfl
    · rw [bitStep_of_ne v hc]
      refine h.imp id ?_
      rintro ⟨d, hd, hdp⟩
      rcases List.mem_cons.1 hd with rfl | hd
      · exact absurd hdp hc
      · exact ⟨d, hd, hdp⟩

/-- Where one bit alone goes to a column, the cell takes its one step. -/
theorem intensityAfter_of_single {trace : Bool} {x0 : Nat} {row : Byte} {p c : Nat} (v : Byte) (hc8 : c < 8)
    (hsingle : ∀ d < 8, bitColumn x0 d = p → d = c) :
    intensityAfter trace x0 row p v = bitStep trace x0 row p v c := by
  have hsplit : List.range' 0 8 = List.range' 0 c ++ c :: List.range' (c + 1) (7 - c) := by
    rw [← List.range'_succ, show 8 = c + (7 - c + 1) by omega, ← List.range'_append_1, Nat.zero_add]
  rw [intensityAfter_eq, hsplit, List.foldl_append, List.foldl_cons, foldl_bitStep_of_ne, foldl_bitStep_of_ne]
  · intro d hd hdp
    have := List.mem_range'_1.1 hd
    have := hsingle d (by omega) hdp
    omega
  · intro d hd hdp
    have := List.mem_range'_1.1 hd
    have := hsingle d (by omega) hdp
    omega

/-- A step leaves 255 or the off value. -/
theorem bitStep_eq {trace : Bool} {x0 : Nat} {row : Byte} {p c : Nat} (v : Byte) (hc : bitColumn x0 c = p) :
    bitStep trace x0 row p v c = if bitStep trace x0 row p v c = 255#8 then 255#8 else offValue trace v := by
  unfold bitStep
  rw [if_pos hc]
  by_cases h : (v == 255#8) ^^ row.getLsbD (7 - c)
  · simp [h]
  · simp [h, offValue_ne_full]

/-- Settles O21: cell by cell, what the scan of the cell's row leads to. -/
theorem drawTogglesCells : Obligations.DrawTogglesCells := by
  intro x y n s hmem
  have hk := shownRows_le (s.reg y) n
  have hx : (s.reg x).toNat % 64 < 64 := Nat.mod_lt _ (by decide)
  refine ⟨_, exec_drw_inMemory x hmem, fun p q hp hq => ⟨spriteBlit_on x y s p q hk, fun hq1 hq2 hp1 hp2 => ?_⟩⟩
  have hcell := spriteBlit_get x y s hk hp hq1 hq2
  have hbit : bitColumn ((s.reg x).toNat % 64) (p - (s.reg x).toNat % 64) = p := by
    show min _ 63 = p
    omega
  simp only [State.on, State.setDrew_cell, applyBlit_cell, hcell, beq_iff_eq]
  refine ⟨fun htrace => ?_, fun htrace hone => ?_, trivial⟩
  · rw [htrace]
    have htwo := foldl_bitStep_twoValued ((s.reg x).toNat % 64)
      (s.mem.read (s.i.toNat + (q - (s.reg y).toNat % 32))) p (List.range' 0 8) (s.cell p q)
      (.inr ⟨_, List.mem_range'_1.2 ⟨Nat.zero_le _, by omega⟩, hbit⟩)
    rw [← intensityAfter_eq] at htwo
    rcases htwo with h | h <;> rw [h] <;> rfl
  · have hstep := intensityAfter_of_single (trace := s.trace) (c := p - (s.reg x).toNat % 64)
      (row := s.mem.read (s.i.toNat + (q - (s.reg y).toNat % 32))) (s.cell p q) (by omega) (fun d hd hdp => by
        have : min ((s.reg x).toNat % 64 + d) 63 = p := hdp
        omega)
    rw [hstep]
    conv_lhs => rw [bitStep_eq (s.cell p q) hbit]
    rw [offValue, if_pos htrace]

/-! Collisions and new pixels (R147, R148, R152). -/

theorem spriteBlit_hit (x y : RegIdx) {k : Nat} (s : State) (hk : (s.reg y).toNat % 32 + 0 + k ≤ Config.dispH) :
    (spriteBlit x y k s).hit = true ↔ ∃ r c : Nat, r < k ∧ c < 8 ∧
      (s.mem.read (s.i.toNat + r)).getLsbD (7 - c) = true ∧
      findsOn ((s.reg x).toNat % 64) (s.mem.read (s.i.toNat + r)) (fun p => s.on p ((s.reg y).toNat % 32 + r)) c =
        true := by
  refine (drawRows_hit _ _ _ _ _ _ hk).trans ?_
  simp only [Bool.false_eq_true, false_or, Nat.zero_add, exists_and_left]
  rfl

theorem spriteBlit_new (x y : RegIdx) {k : Nat} (s : State) (hk : (s.reg y).toNat % 32 + 0 + k ≤ Config.dispH) :
    (spriteBlit x y k s).new = true ↔ ∃ r c : Nat, r < k ∧ c < 8 ∧
      (s.mem.read (s.i.toNat + r)).getLsbD (7 - c) = true ∧
      findsOn ((s.reg x).toNat % 64) (s.mem.read (s.i.toNat + r)) (fun p => s.on p ((s.reg y).toNat % 32 + r)) c =
        false := by
  refine (drawRows_new _ _ _ _ _ _ hk).trans ?_
  simp only [Bool.false_eq_true, false_or, Nat.zero_add, exists_and_left]
  rfl

/-- A range with more than `k` hits has a hit with exactly `k` before it. -/
theorem exists_hit_of_lt_countP_range {f : Nat → Bool} {k n : Nat} (h : k < (List.range n).countP f) :
    ∃ c < n, f c = true ∧ (List.range c).countP f = k := by
  induction n with
  | zero => simp at h
  | succ n ih =>
    by_cases hk : k < (List.range n).countP f
    · obtain ⟨c, hc, hfc⟩ := ih hk
      exact ⟨c, by omega, hfc⟩
    · rw [List.range_succ, List.countP_append, List.countP_singleton] at h
      cases hf : f n with
      | true => exact ⟨n, by omega, hf, by rw [hf] at h; simp at h; omega⟩
      | false => rw [hf] at h; simp at h; omega

/-- What a 1 bit of the last column finds depends only on how many 1 bits went there before it. -/
theorem findsOn_last_column {x0 : Nat} {row : Byte} {c : Nat} (before : Nat → Bool) (hc : min (x0 + c) 63 = 63) :
    findsOn x0 row before c = xor (before 63)
      ((List.range c).countP (fun d => decide (min (x0 + d) 63 = 63) && row.getLsbD (7 - d)) % 2 == 1) := by
  rw [findsOn, hc]

/-- Of two 1 bits in the last column, one finds its cell on and one finds it off (R152). -/
theorem findsOn_both_of_two_last {x0 : Nat} {row : Byte} (before : Nat → Bool) (h : 2 ≤ lastColumnBits x0 row)
    (found : Bool) : ∃ c < 8, row.getLsbD (7 - c) = true ∧ findsOn x0 row before c = found := by
  have hnth : ∀ k < 2, ∃ c < 8, row.getLsbD (7 - c) = true ∧ findsOn x0 row before c = xor (before 63) (k % 2 == 1) := by
    intro k hk
    obtain ⟨c, hc8, hc, hcount⟩ := exists_hit_of_lt_countP_range (lt_of_lt_of_le hk h)
    rw [Bool.and_eq_true, decide_eq_true_eq] at hc
    exact ⟨c, hc8, hc.2, by rw [findsOn_last_column before hc.1, hcount]⟩
  by_cases hfound : before 63 = found
  · simpa [hfound] using hnth 0 (by decide)
  · have hnot : (!before 63) = found := by
      rw [Bool.not_eq]
      exact hfound
    simpa [hnot] using hnth 1 (by decide)

/-- Clear of the last columns the bits of a row go to different cells. -/
theorem findsOn_of_le {x0 : Nat} (row : Byte) (before : Nat → Bool) {c : Nat} (hx : x0 ≤ 56) (hc : c < 8) :
    findsOn x0 row before c = before (x0 + c) := by
  have hnone : (List.range c).countP
      (fun d => decide (min (x0 + d) 63 = min (x0 + c) 63) && row.getLsbD (7 - d)) = 0 := by
    refine List.countP_eq_zero.2 fun d hd => ?_
    have hd := List.mem_range.1 hd
    rw [decide_eq_false (by omega), Bool.false_and]
    exact Bool.false_ne_true
  rw [findsOn, hnone, Nat.min_eq_left (by omega)]
  exact Bool.xor_false _

/-- Settles O22: the flags of the blit, read off the bits of the rows. -/
theorem drawReportsCollision : Obligations.DrawReportsCollision := by
  intro x y n s hmem
  have hk := shownRows_le (s.reg y) n
  have hhit := spriteBlit_hit x y s hk
  have hnew := spriteBlit_new x y s hk
  refine ⟨_, exec_drw_inMemory x hmem, ?_⟩
  simp only [State.setDrew_reg, applyBlit_reg_vf, State.setDrew_drew, flagByte_eq_one_iff]
  have hdrew : (if s.rflick = true then (spriteBlit x y (shownRows ((s.reg y).toNat % 32) n) s).new else true) = true ↔
      s.rflick = false ∨ (spriteBlit x y (shownRows ((s.reg y).toNat % 32) n) s).new = true := by
    cases s.rflick <;> simp
  refine ⟨hhit, by simpa only [flagByte_eq_one_iff] using flagByte_eq_zero_or_one _, by rw [hdrew, hnew],
    fun r hr htwo => ⟨?_, ?_⟩, fun hx r c hc => findsOn_of_le _ _ hx hc⟩
  · obtain ⟨c, hc, hbit, hfinds⟩ := findsOn_both_of_two_last _ htwo true
    exact hhit.2 ⟨r, c, hr, hc, hbit, hfinds⟩
  · obtain ⟨c, hc, hbit, hfinds⟩ := findsOn_both_of_two_last _ htwo false
    exact hdrew.2 (.inr (hnew.2 ⟨r, c, hr, hc, hbit, hfinds⟩))

/-- Settles O23: a draw of the rows before the faulting one applies the same blit. -/
theorem drawFaultsBeyondMemory : Obligations.DrawFaultsBeyondMemory := by
  intro x y n s r hr hshown
  have hr16 : r < 16 := by
    have := n.isLt
    unfold shownRows at hshown
    omega
  have hrows : drawnRows y n s = r := by
    unfold drawnRows
    omega
  have hshown' : shownRows ((s.reg y).toNat % 32) (BitVec.ofNat 4 r) = r := by
    unfold shownRows at hshown ⊢
    rw [BitVec.toNat_ofNat, Nat.mod_eq_of_lt hr16]
    omega
  have hrows' : drawnRows y (BitVec.ofNat 4 r) s = r := by
    unfold drawnRows
    omega
  rcases exec_drw_cases x y n s with ⟨h, _⟩ | ⟨_, e⟩
  · omega
  rcases exec_drw_cases x y (BitVec.ofNat 4 r) s with ⟨_, e'⟩ | ⟨h, _⟩
  · rw [hrows] at e
    rw [hrows'] at e'
    exact ⟨_, _, e, e', rfl, rfl⟩
  · omega

/-- Settles O24: no row is drawn, wherever `I` points. -/
theorem drawOfNoRows : Obligations.DrawOfNoRows := by
  intro x y s
  have hrows : drawnRows y 0 s = 0 := by
    simp [drawnRows, shownRows]
  rcases exec_drw_cases x y 0 s with ⟨_, e⟩ | ⟨h, _⟩
  · rw [hrows] at e
    refine ⟨_, e, fun r => ?_, rfl, rfl⟩
    rw [State.setDrew_reg, applyBlit, State.reg_setFlag]
    simp only [@eq_comm _ r]
    rfl
  · rw [hrows] at h
    simp [shownRows] at h

/-- A draw toggles the same cells whatever the grid holds. -/
theorem exec_drw_on {x y : RegIdx} {n : BitVec 4} {s t : State} (h : exec (.drw x y n) s = .next t) (p q : Nat) :
    t.on p q = xor (s.on p q) (spriteToggles x y (drawnRows y n s) s p q) := by
  have hdisp : t.disp = (spriteBlit x y (drawnRows y n s) s).grid := (congrArg State.disp (exec_drw_applies h) :)
  rw [← spriteBlit_on x y s p q (drawnRows_on_display y n s), State.on, State.cell, hdisp, gridOn]

/-- Settles O25: the second draw reads the same registers, memory and `I`, so it toggles the same cells back. -/
theorem drawTwiceRestores : Obligations.DrawTwiceRestores := by
  intro x y n s t u hst hx hy htu p q _ _
  have happly := exec_drw_applies hst
  have hi : t.i = s.i := (congrArg State.i happly :)
  have hm : t.mem = s.mem := (congrArg State.mem happly :)
  have hsame : spriteToggles x y (drawnRows y n t) t p q = spriteToggles x y (drawnRows y n s) s p q := by
    unfold spriteToggles drawnRows
    rw [hi, hm, hx, hy]
  rw [exec_drw_on htu, exec_drw_on hst, hsame, Bool.xor_assoc, Bool.xor_self, Bool.xor_false]

end Sys2Proof.Machine

/-! PROOFS. What each instruction can fault with and what it writes (spec/60_exceptions.md R259, spec/10_state.md
section 1). -/

namespace Sys2Proof.Machine

/-! What each instruction may write. -/

/-- `t` with every item that the instruction may write put back as it is in `s` (section 1 of spec/10_state.md). -/
def undoWrites (s t : State) : Instr → State
  | .jp _ | .jpV0 _ _ | .seK _ _ | .sneK _ _ | .seReg _ _ | .sneReg _ _ => { t with pc := s.pc }
  | .skp _ | .sknp _ => { t with pc := s.pc, fault := s.fault }
  | .ret => { t with sp := s.sp, pc := s.pc, fault := s.fault }
  | .call _ => { t with sp := s.sp, stack := s.stack, pc := s.pc, fault := s.fault }
  | .ldK _ _ | .addK _ _ | .ldReg _ _ | .orReg _ _ | .andReg _ _ | .xorReg _ _ | .addReg _ _ | .subReg _ _
  | .shrReg _ _ | .subnReg _ _ | .shlReg _ _ | .ldVxDt _ => { t with v := s.v }
  | .rnd _ _ => { t with v := s.v, draws := s.draws }
  | .cls => { t with disp := s.disp, drew := s.drew }
  | .drw _ _ _ => { t with v := s.v, disp := s.disp, drew := s.drew, fault := s.fault }
  | .ldVxKey _ => { t with v := s.v, key := s.key, pc := s.pc }
  | .ldDtVx _ => { t with dt := s.dt }
  | .ldStVx _ => { t with st := s.st }
  | .ldI _ | .ldF _ => { t with i := s.i }
  | .addI _ | .loadRegs _ => { t with v := s.v, i := s.i, fault := s.fault }
  | .ldB _ => { t with mem := s.mem, fault := s.fault }
  | .storeRegs _ => { t with mem := s.mem, i := s.i, fault := s.fault }

/-- Where an instruction's next state is known, so is that of any equal outcome. -/
theorem exec_next_inj {i : Instr} {s t u : State} (h : exec i s = .next t) (e : exec i s = .next u) : t = u :=
  Host.Outcome.next.inj (h.symm.trans e)

theorem keySkip_frame (test : KeyState → Bool) (x : RegIdx) (s : State) :
    { keySkip test x s with pc := s.pc, fault := s.fault } = s := by
  rcases keySkip_cases test x s with ⟨_, e⟩ | ⟨_, e⟩ <;> rw [e]
  · rfl
  · exact (congrArg (fun u : State => { u with fault := s.fault }) (skipIf_frame _ s) :)

/-- Every instruction leaves what it does not write. -/
theorem exec_undoWrites {i : Instr} {s t : State} (h : exec i s = .next t) : undoWrites s t i = s := by
  cases i with
  | cls | jp a | jpV0 x a | ldK x k | addK x k | ldReg x y | addReg x y | subReg x y | shrReg x y | subnReg x y
  | shlReg x y | ldVxDt x | rnd x k | ldDtVx x | ldStVx x | ldI a | ldF x => cases h; rfl
  | seK x k | sneK x k | seReg x y | sneReg x y => cases h; exact skipIf_frame _ s
  | orReg x y | andReg x y | xorReg x y => cases h; exact writeLogic_frame x _ s
  | ret =>
    rcases exec_ret_cases s with ⟨_, e⟩ | ⟨_, e⟩ <;> cases exec_next_inj h e <;> rfl
  | call a =>
    rcases exec_call_cases a s with ⟨_, e⟩ | ⟨_, e⟩ <;> cases exec_next_inj h e <;> rfl
  | skp x => cases exec_next_inj h (exec_skp x s); exact keySkip_frame _ x s
  | sknp x => cases exec_next_inj h (exec_sknp x s); exact keySkip_frame _ x s
  | drw x y n =>
    exact (congrArg (fun u : State => { u with v := s.v, disp := s.disp }) (exec_drw_applies h) :)
  | ldVxKey x =>
    rcases exec_ldVxKey_cases x s with ⟨_, _, e⟩ | ⟨_, e⟩ <;> cases exec_next_inj h e <;> rfl
  | addI x =>
    rcases exec_addI_cases x s with ⟨_, e⟩ | ⟨_, e⟩ <;> cases exec_next_inj h e <;> rfl
  | ldB x =>
    cases exec_next_inj h (exec_ldB x s)
    rw [storeBytes_spec _ (significantDigits_ne_nil _)]
    rfl
  | storeRegs x =>
    cases exec_next_inj h (exec_storeRegs x s)
    rw [storeBlock_spec]
    rfl
  | loadRegs x =>
    obtain ⟨v, e, -⟩ := loadBlock_spec (show x.toNat + 1 ≤ 16 from x.isLt) s
    cases exec_next_inj h (exec_loadRegs x s)
    rw [e]
    rfl

/-- Every instruction leaves each item that it does not write. -/
theorem exec_keeps {α : Type} (item : State → α) {i : Instr} {s t : State} (h : exec i s = .next t) :
    item (undoWrites s t i) = item s := congrArg item (exec_undoWrites h)

/-- Only `RND` draws, and once (R131). -/
theorem exec_draws {i : Instr} {s t : State} (h : exec i s = .next t) :
    t.draws = (match i with | .rnd _ _ => s.draws + 1 | _ => s.draws) := by
  cases i with
  | rnd x k => cases h; rfl
  | _ => exact exec_keeps State.draws h

/-- Settles O46: none of these items is among the writes of any instruction. -/
theorem instructionsLeaveHostState : Obligations.InstructionsLeaveHostState := by
  intro i s t h
  have hdraws := exec_draws h
  cases i <;>
    exact ⟨exec_keeps State.run h, exec_keeps State.cpuAcc h, exec_keeps State.tickAcc h,
      exec_keeps State.schip h, exec_keeps State.trace h, exec_keeps State.rflick h, exec_keeps State.cpuHz h,
      exec_keeps State.romLen h, exec_keeps State.rom h, exec_keeps State.fetchWord h,
      exec_keeps State.fetchAddr h, exec_keeps State.steps h, exec_keeps State.beep h, hdraws⟩

/-! The writers of each item (section 1 of spec/10_state.md): every other instruction leaves it. -/

section Writers

variable {i : Instr} {s t : State} (h : exec i s = .next t)
include h

theorem mem_writers (hne : t.mem ≠ s.mem) : (∃ x, i = .ldB x) ∨ ∃ x, i = .storeRegs x := by
  cases i with
  | ldB x => exact .inl ⟨x, rfl⟩
  | storeRegs x => exact .inr ⟨x, rfl⟩
  | _ => exact absurd (exec_keeps State.mem h) hne

theorem disp_writers (hne : t.disp ≠ s.disp) : i = .cls ∨ ∃ x y n, i = .drw x y n := by
  cases i with
  | cls => exact .inl rfl
  | drw x y n => exact .inr ⟨x, y, n, rfl⟩
  | _ => exact absurd (exec_keeps State.disp h) hne

theorem sp_writers (hne : t.sp ≠ s.sp) : i = .ret ∨ ∃ a, i = .call a := by
  cases i with
  | ret => exact .inl rfl
  | call a => exact .inr ⟨a, rfl⟩
  | _ => exact absurd (exec_keeps State.sp h) hne

theorem stack_writers (hne : t.stack ≠ s.stack) : ∃ a, i = .call a := by
  cases i with
  | call a => exact ⟨a, rfl⟩
  | _ => exact absurd (exec_keeps State.stack h) hne

theorem dt_writers (hne : t.dt ≠ s.dt) : ∃ x, i = .ldDtVx x := by
  cases i with
  | ldDtVx x => exact ⟨x, rfl⟩
  | _ => exact absurd (exec_keeps State.dt h) hne

theorem st_writers (hne : t.st ≠ s.st) : ∃ x, i = .ldStVx x := by
  cases i with
  | ldStVx x => exact ⟨x, rfl⟩
  | _ => exact absurd (exec_keeps State.st h) hne

theorem key_writers (hne : t.key ≠ s.key) : ∃ x, i = .ldVxKey x := by
  cases i with
  | ldVxKey x => exact ⟨x, rfl⟩
  | _ => exact absurd (exec_keeps State.key h) hne

theorem i_writers (hne : t.i ≠ s.i) : (∃ a, i = .ldI a) ∨ (∃ x, i = .addI x) ∨ (∃ x, i = .ldF x) ∨
    (∃ x, i = .storeRegs x) ∨ ∃ x, i = .loadRegs x := by
  cases i with
  | ldI a => exact .inl ⟨a, rfl⟩
  | addI x => exact .inr (.inl ⟨x, rfl⟩)
  | ldF x => exact .inr (.inr (.inl ⟨x, rfl⟩))
  | storeRegs x => exact .inr (.inr (.inr (.inl ⟨x, rfl⟩)))
  | loadRegs x => exact .inr (.inr (.inr (.inr ⟨x, rfl⟩)))
  | _ => exact absurd (exec_keeps State.i h) hne

end Writers

/-- Settles O48: item by item. -/
theorem eachItemHasItsWriters : Obligations.EachItemHasItsWriters := by
  intro i s t h
  exact ⟨mem_writers h, disp_writers h, sp_writers h, stack_writers h, dt_writers h, st_writers h, key_writers h,
    i_writers h⟩

/-! Which fault each instruction can raise (R259). -/

/-- The causes that R259 lists for each instruction. -/
def mayRaise (c : FaultCause) : Instr → Prop
  | .call _ => c = .stackOverflow
  | .ret => c = .stackUnderflow
  | .drw _ _ _ | .ldB _ | .storeRegs _ | .loadRegs _ => ∃ a, c = .memBounds a ∧ a > 0xFFF
  | .skp _ | .sknp _ => ∃ k, c = .keyIndex k ∧ k.toNat > 15
  | .addI _ => ∃ n, c = .indexOverflow n ∧ n > 0xFFFF
  | _ => False

/-- What an instruction may have done before it faults: registers, `I`, memory and grid, as far as it came (R248). -/
abbrev FaultsWith (i : Instr) (s t : State) : Prop :=
  ∃ c u, t = raise c u ∧ { u with v := s.v, i := s.i, mem := s.mem, disp := s.disp } = s ∧ mayRaise c i

theorem memBounds_max (a : Nat) : ∃ b, FaultCause.memBounds (max a 4096) = .memBounds b ∧ b > 0xFFF :=
  ⟨_, rfl, lt_of_lt_of_le (by decide) (le_max_right a 4096)⟩

/-- A transfer that faults only at the end of memory, with what it has written. -/
theorem transfer_fault_cases {b : Prop} [Decidable b] {i : Instr} {s : State} {v : Vector Byte 16} {j : Word} {m : Memory}
    {a : Nat} (hmay : mayRaise (.memBounds (max a 4096)) i) :
    (if b then s.fault else some ⟨.memBounds (max a 4096), s.fetchWord, s.fetchAddr⟩) = s.fault ∨
      FaultsWith i s { s with
        v := v, i := j, mem := m
        fault := if b then s.fault else some ⟨.memBounds (max a 4096), s.fetchWord, s.fetchAddr⟩ } := by
  by_cases h : b
  · exact .inl (if_pos h)
  · exact .inr ⟨_, { s with v := v, i := j, mem := m }, by rw [if_neg h]; rfl, rfl, hmay⟩

theorem keySkip_fault_cases (test : KeyState → Bool) (x : RegIdx) (s : State) :
    (keySkip test x s).fault = s.fault ∨
      ∃ k, keySkip test x s = raise (.keyIndex k) s ∧ k.toNat > 15 := by
  rcases keySkip_cases test x s with ⟨hk, e⟩ | ⟨_, e⟩
  · exact .inr ⟨_, e, hk⟩
  · exact .inl (by rw [e, skipIf_fault])

/-- An instruction leaves `FAULT`, or faults with a cause of its own. -/
theorem exec_fault_cases {i : Instr} {s t : State} (h : exec i s = .next t) : t.fault = s.fault ∨ FaultsWith i s t := by
  cases i with
  | call a =>
    rcases exec_call_cases a s with ⟨_, e⟩ | ⟨_, e⟩ <;> cases exec_next_inj h e
    · exact .inr ⟨_, s, rfl, rfl, rfl⟩
    · exact .inl rfl
  | ret =>
    rcases exec_ret_cases s with ⟨_, e⟩ | ⟨_, e⟩ <;> cases exec_next_inj h e
    · exact .inr ⟨_, s, rfl, rfl, rfl⟩
    · exact .inl rfl
  | drw x y n =>
    rcases exec_drw_cases x y n s with ⟨_, e⟩ | ⟨hk, e⟩ <;> cases exec_next_inj h e
    · exact .inl rfl
    · exact .inr ⟨_, applyBlit _ s, rfl, rfl, _, rfl, by unfold drawnRows at hk ⊢; omega⟩
  | skp x =>
    cases exec_next_inj h (exec_skp x s)
    exact (keySkip_fault_cases _ x s).imp id fun ⟨k, e, hk⟩ => ⟨_, s, e, rfl, k, rfl, hk⟩
  | sknp x =>
    cases exec_next_inj h (exec_sknp x s)
    exact (keySkip_fault_cases _ x s).imp id fun ⟨k, e, hk⟩ => ⟨_, s, e, rfl, k, rfl, hk⟩
  | addI x =>
    rcases exec_addI_cases x s with ⟨hsum, e⟩ | ⟨_, e⟩ <;> cases exec_next_inj h e
    · exact .inr ⟨_, s, rfl, rfl, _, rfl, hsum⟩
    · exact .inl rfl
  | ldB x =>
    cases exec_next_inj h (exec_ldB x s)
    rw [storeBytes_spec _ (significantDigits_ne_nil _)]
    exact transfer_fault_cases (memBounds_max _)
  | storeRegs x =>
    cases exec_next_inj h (exec_storeRegs x s)
    rw [storeBlock_spec]
    exact transfer_fault_cases (memBounds_max _)
  | loadRegs x =>
    obtain ⟨v, e, -⟩ := loadBlock_spec (show x.toNat + 1 ≤ 16 from x.isLt) s
    cases exec_next_inj h (exec_loadRegs x s)
    rw [e]
    exact transfer_fault_cases (memBounds_max _)
  | _ => exact .inl (exec_keeps State.fault h)

/-- The record of a fault raised by an instruction: its cause, and the latched word and address. -/
theorem exec_fault_record {i : Instr} {s t : State} {r : FaultRecord} (hs : s.fault = none) (h : exec i s = .next t)
    (hr : t.fault = some r) : r.word = s.fetchWord ∧ r.addr = s.fetchAddr ∧ mayRaise r.cause i := by
  rcases exec_fault_cases h with hsame | ⟨c, u, rfl, hframe, hmay⟩
  · rw [hsame, hs] at hr
    cases hr
  · cases hr
    exact ⟨(congrArg State.fetchWord hframe :), (congrArg State.fetchAddr hframe :), hmay⟩

theorem fetch_fault {s : State} {c : FaultCause} (h : fetch s = .error c) : ∃ a, c = .memBounds a ∧ a > 0xFFF := by
  rcases fetch_cases s with ⟨ha, e⟩ | ⟨_, e⟩ | ⟨_, e⟩ <;> rw [e] at h <;> cases h
  · exact ⟨_, rfl, ha⟩
  · exact ⟨_, rfl, by decide⟩

theorem executeFetched_illegal {s : State} {x : Illegal} (h : decodeWord s.fetchWord = .error x) :
    executeFetched s = .next (raise .decodeFault s) := by
  rw [executeFetched, h]

/-- Settles O44: fetch, illegal word and instruction each by what they can raise. -/
theorem faultsByInstruction : Obligations.FaultsByInstruction := by
  refine ⟨fun s c h => fetch_fault h, fun s t x hx h => ?_, fun i s t r hs h hr => ?_⟩
  · rw [executeFetched_illegal hx] at h
    cases h
    exact raise_fault _ s
  · obtain ⟨hword, haddr, hmay⟩ := exec_fault_record hs h hr
    exact ⟨hword, haddr, hmay⟩

end Sys2Proof.Machine

/-! PROOFS. What the picture, the trace mode and the quirk mode influence (spec/10_state.md R31, R35,
spec/42_display.md R149). -/

namespace Sys2Proof.Machine

/-! The cases of the instructions that test the state, each under its test. -/

theorem exec_ret_underflow {s : State} (h : s.sp.val = 0) : exec .ret s = .next (raise .stackUnderflow s) :=
  (exec_ret_cases s).elim And.right fun ⟨h', _⟩ => absurd h h'

theorem exec_ret_pop {s : State} (h : s.sp.val ≠ 0) :
    exec .ret s = .next ((s.setSp ⟨s.sp.val - 1, by have := s.sp.isLt; omega⟩).setPc
      (s.stack[s.sp.val - 1]'(by have := s.sp.isLt; omega))) :=
  (exec_ret_cases s).elim (fun h' => absurd h'.1 h) fun ⟨_, e⟩ => e

theorem exec_call_overflow (a : Addr12) {s : State} (h : s.sp.val = 16) :
    exec (.call a) s = .next (raise .stackOverflow s) :=
  (exec_call_cases a s).elim And.right fun ⟨h', _⟩ => absurd h h'.ne

theorem exec_call_push (a : Addr12) {s : State} (h : s.sp.val < 16) : exec (.call a) s =
    .next (((s.setStack (s.stack.set s.sp.val s.pc h)).setSp ⟨s.sp.val + 1, by omega⟩).setPc (a.setWidth 16)) :=
  (exec_call_cases a s).elim (fun h' => absurd h'.1 h.ne) fun ⟨_, e⟩ => e

theorem exec_addI_overflow {x : RegIdx} {s : State} (h : s.i.toNat + (s.reg x).toNat > 0xFFFF) :
    exec (.addI x) s = .next (raise (.indexOverflow (s.i.toNat + (s.reg x).toNat)) s) :=
  (exec_addI_cases x s).elim And.right fun h' => absurd h (Nat.not_lt_of_le h'.1)

theorem exec_addI_sum {x : RegIdx} {s : State} (h : s.i.toNat + (s.reg x).toNat ≤ 0xFFFF) :
    exec (.addI x) s = .next (writeIndexFlag (s.i.toNat + (s.reg x).toNat)
      (s.setI (BitVec.ofNat 16 (s.i.toNat + (s.reg x).toNat)))) :=
  (exec_addI_cases x s).elim (fun h' => absurd h'.1 (Nat.not_lt_of_le h)) And.right

theorem exec_ldVxKey_some (x : RegIdx) {s : State} {k : RegIdx} (h : firstReleased s = some k) :
    exec (.ldVxKey x) s = .next ((s.setKey k .released).setReg x (k.setWidth 8)) := by
  rw [exec, execLdVxKey, h]

theorem exec_ldVxKey_none (x : RegIdx) {s : State} (h : firstReleased s = none) :
    exec (.ldVxKey x) s = .next (s.setPc (s.pc - 2)) := by
  rw [exec, execLdVxKey, h]

theorem exec_drw_completes (x : RegIdx) {y : RegIdx} {n : BitVec 4} {s : State}
    (h : drawnRows y n s = shownRows ((s.reg y).toNat % 32) n) :
    exec (.drw x y n) s = .next ((applyBlit (spriteBlit x y (drawnRows y n s) s) s).setDrew
      (if s.rflick then (spriteBlit x y (drawnRows y n s) s).new else true)) :=
  (exec_drw_cases x y n s).elim And.right fun h' => absurd h h'.1.ne

theorem exec_drw_faults (x : RegIdx) {y : RegIdx} {n : BitVec 4} {s : State}
    (h : drawnRows y n s < shownRows ((s.reg y).toNat % 32) n) :
    exec (.drw x y n) s = .next (raise (.memBounds (s.i.toNat + drawnRows y n s))
      (applyBlit (spriteBlit x y (drawnRows y n s) s) s)) :=
  (exec_drw_cases x y n s).elim (fun h' => absurd h'.1 h.ne) And.right

/-! Another picture, trace mode and quirk mode. -/

/-- The state with another grid, trace mode and quirk mode. -/
def withModes (d : Display) (b q : Bool) (s : State) : State := { s with disp := d, trace := b, schip := q }

/-- The instructions that R31 names: those that read the quirk mode. -/
def readsSchip : Instr → Bool
  | .orReg _ _ | .andReg _ _ | .xorReg _ _ | .shrReg _ _ | .shlReg _ _ | .jpV0 _ _ | .storeRegs _ | .loadRegs _ => true
  | _ => false

/-- The instructions that write the grid. -/
def writesGrid : Instr → Bool
  | .cls | .drw _ _ _ => true
  | _ => false

section WithModes

variable (d : Display) (b q : Bool)

theorem skipIf_withModes (c : Bool) (s : State) : skipIf c (withModes d b q s) = withModes d b q (skipIf c s) := by
  cases c <;> rfl

theorem writeLogic_withModes (x : RegIdx) (r : Byte) (s : State) :
    writeLogic x r (withModes d b s.schip s) = withModes d b s.schip (writeLogic x r s) := by
  unfold writeLogic
  rw [show (withModes d b s.schip s).schip = s.schip from rfl]
  cases s.schip <;> rfl

theorem keySkip_withModes (test : KeyState → Bool) (x : RegIdx) (s : State) :
    keySkip test x (withModes d b q s) = withModes d b q (keySkip test x s) := by
  unfold keySkip
  rw [show (withModes d b q s).reg x = s.reg x from rfl]
  rcases keyOperand_cases (s.reg x) with ⟨_, e⟩ | ⟨_, e⟩ <;> rw [e]
  · rfl
  · exact skipIf_withModes d b q _ s

theorem loadBlock_withModes {count : Nat} (hcount : count ≤ 16) (s : State) :
    loadBlock count 0 (withModes d b s.schip s) = withModes d b s.schip (loadBlock count 0 s) := by
  obtain ⟨v, e, hv⟩ := loadBlock_spec hcount s
  obtain ⟨w, e', hw⟩ := loadBlock_spec hcount (withModes d b s.schip s)
  have hvw : v = w := State.v_eq_of_reg_eq (s := { s with v := v }) (t := { withModes d b s.schip s with v := w })
    fun r => (hv r).trans (hw r).symm
  rw [e, e', hvw]
  rfl

/-- Every instruction that does not write the grid takes the other grid and modes along; the quirk mode must be the same
where it is read. -/
theorem exec_withModes {i : Instr} {s t : State} (h : exec i s = .next t) (hgrid : writesGrid i = false)
    (hmode : readsSchip i = true → q = s.schip) : exec i (withModes d b q s) = .next (withModes d b q t) := by
  cases i with
  | cls | drw x y n => cases hgrid
  | jp a | ldK x k | addK x k | ldReg x y | addReg x y | subReg x y | subnReg x y | ldVxDt x | rnd x k | ldDtVx x
  | ldStVx x | ldI a | ldF x => cases h; rfl
  | shrReg x y | shlReg x y | jpV0 x a => cases hmode rfl; cases h; rfl
  | orReg x y | andReg x y | xorReg x y =>
    cases hmode rfl; cases h
    exact congrArg Host.Outcome.next (writeLogic_withModes d b x _ s)
  | seK x k | sneK x k | seReg x y | sneReg x y =>
    cases h
    exact congrArg Host.Outcome.next (skipIf_withModes d b q _ s)
  | skp x =>
    cases exec_next_inj h (exec_skp x s)
    rw [exec_skp, keySkip_withModes]
  | sknp x =>
    cases exec_next_inj h (exec_sknp x s)
    rw [exec_sknp, keySkip_withModes]
  | ret =>
    by_cases h0 : s.sp.val = 0
    · cases exec_next_inj h (exec_ret_underflow h0)
      exact exec_ret_underflow (s := withModes d b q s) h0
    · cases exec_next_inj h (exec_ret_pop h0)
      exact exec_ret_pop (s := withModes d b q s) h0
  | call a =>
    rcases exec_call_cases a s with ⟨h16, e⟩ | ⟨h16, e⟩ <;> cases exec_next_inj h e
    · exact exec_call_overflow a (s := withModes d b q s) h16
    · exact exec_call_push a (s := withModes d b q s) h16
  | ldVxKey x =>
    rcases exec_ldVxKey_cases x s with ⟨k, hk, e⟩ | ⟨hnone, e⟩ <;> cases exec_next_inj h e
    · exact exec_ldVxKey_some x (s := withModes d b q s) hk
    · exact exec_ldVxKey_none x (s := withModes d b q s) hnone
  | addI x =>
    rcases exec_addI_cases x s with ⟨hsum, e⟩ | ⟨hsum, e⟩ <;> cases exec_next_inj h e
    · exact exec_addI_overflow (s := withModes d b q s) hsum
    · exact exec_addI_sum (s := withModes d b q s) hsum
  | ldB x =>
    cases exec_next_inj h (exec_ldB x s)
    rw [exec_ldB, storeBytes_spec _ (significantDigits_ne_nil _), storeBytes_spec _ (significantDigits_ne_nil _)]
    rfl
  | storeRegs x =>
    cases hmode rfl
    cases exec_next_inj h (exec_storeRegs x s)
    rw [exec_storeRegs, storeBlock_spec, storeBlock_spec]
    rfl
  | loadRegs x =>
    cases hmode rfl
    cases exec_next_inj h (exec_loadRegs x s)
    rw [exec_loadRegs, loadBlock_withModes d b (show x.toNat + 1 ≤ 16 from x.isLt)]

end WithModes

/-! The quirk mode (R31, R287). -/

theorem blitRows_setSchip (q : Bool) (s : State) (x0 y0 count r : Nat) (b : Blit) :
    blitRows { s with schip := q } x0 y0 count r b = blitRows s x0 y0 count r b := by
  induction count generalizing r b with
  | zero => rfl
  | succ count ih =>
    rw [blitRows, blitRows]
    split
    · rfl
    · rcases memRead_cases (dataAddr r s) s with ⟨ha, e⟩ | ⟨ha, e⟩
      · rw [e, show memRead (dataAddr r { s with schip := q }) { s with schip := q } = _ from memRead_error ha]
        rfl
      · rw [e, show memRead (dataAddr r { s with schip := q }) { s with schip := q } = _ from memRead_ok ha]
        exact ih _ _

theorem finishBlit_setSchip (q : Bool) (s : State) (p : Blit × Option FaultCause) :
    finishBlit { s with schip := q } p = { finishBlit s p with schip := q } := by
  rcases p with ⟨b, _ | c⟩ <;> rfl

/-- A draw and a clear take the quirk mode along. -/
theorem exec_setSchip_of_writesGrid {i : Instr} {s t : State} (q : Bool) (hgrid : writesGrid i = true)
    (h : exec i s = .next t) : exec i { s with schip := q } = .next { t with schip := q } := by
  cases i with
  | cls => cases h; rfl
  | drw x y n =>
    cases h
    rw [exec, execDrw, blitRows_setSchip, finishBlit_setSchip]
    rfl
  | _ => cases hgrid

/-- An instruction that does not write the grid leaves it. -/
theorem exec_keeps_disp {i : Instr} {s t : State} (h : exec i s = .next t) (hgrid : writesGrid i = false) :
    t.disp = s.disp := by
  by_contra hne
  rcases disp_writers h hne with rfl | ⟨x, y, n, rfl⟩ <;> cases hgrid

theorem exec_keeps_trace {i : Instr} {s t : State} (h : exec i s = .next t) : t.trace = s.trace :=
  (instructionsLeaveHostState i s t h).2.2.2.2.1

theorem exec_keeps_schip {i : Instr} {s t : State} (h : exec i s = .next t) : t.schip = s.schip :=
  (instructionsLeaveHostState i s t h).2.2.2.1

/-- Settles O47: outside the eight instructions the quirk mode is not read. -/
theorem quirkModeChangesNoOtherInstruction : Obligations.QuirkModeChangesNoOtherInstruction := by
  intro i s t q hor hand hxor hshr hshl hjp hstore hload h
  have hmode : readsSchip i ≠ true := by
    cases i with
    | orReg x y => exact absurd rfl (hor x y)
    | andReg x y => exact absurd rfl (hand x y)
    | xorReg x y => exact absurd rfl (hxor x y)
    | shrReg x y => exact absurd rfl (hshr x y)
    | shlReg x y => exact absurd rfl (hshl x y)
    | jpV0 x a => exact absurd rfl (hjp x a)
    | storeRegs x => exact absurd rfl (hstore x)
    | loadRegs x => exact absurd rfl (hload x)
    | _ => exact Bool.false_ne_true
  cases hgrid : writesGrid i with
  | true => exact exec_setSchip_of_writesGrid q hgrid h
  | false =>
    have hboth := exec_withModes s.disp s.trace q h hgrid fun hm => absurd hm hmode
    have ht : withModes s.disp s.trace q t = { t with schip := q } := by
      rw [← exec_keeps_disp h hgrid, ← exec_keeps_trace h]
      rfl
    exact hboth.trans (congrArg Host.Outcome.next ht)

/-! Intensities (R35, R149). -/

/-- Another grid with the same logical cells. -/
theorem gridOn_eq_of_iff {d e : Display}
    (h : ∀ p q : Nat, p < 64 → q < 32 → (Display.get d p q = 255#8 ↔ Display.get e p q = 255#8)) (p q : Nat) :
    gridOn d p q = gridOn e p q := by
  unfold gridOn
  by_cases hpq : p < Config.dispW ∧ q < Config.dispH
  · rw [Bool.eq_iff_iff, beq_iff_eq, beq_iff_eq]
    exact h p q hpq.1 hpq.2
  · rw [Display.get, Display.get, dif_neg hpq, dif_neg hpq]

/-- What a draw reports depends on the grid only through its logical cells. -/
theorem spriteBlit_flags_eq {d : Display} {b : Bool} {s : State} (x y : RegIdx) {k : Nat}
    (hk : (s.reg y).toNat % 32 + 0 + k ≤ Config.dispH) (hon : ∀ p q, gridOn d p q = s.on p q) :
    (spriteBlit x y k { s with disp := d, trace := b }).hit = (spriteBlit x y k s).hit ∧
      (spriteBlit x y k { s with disp := d, trace := b }).new = (spriteBlit x y k s).new := by
  have hon' : ∀ p q, ({ s with disp := d, trace := b } : State).on p q = s.on p q := hon
  constructor
  · rw [Bool.eq_iff_iff, spriteBlit_hit x y s hk, spriteBlit_hit x y { s with disp := d, trace := b } hk]
    simp only [hon']
    rfl
  · rw [Bool.eq_iff_iff, spriteBlit_new x y s hk, spriteBlit_new x y { s with disp := d, trace := b } hk]
    simp only [hon']
    rfl

theorem applyBlit_intensities {d : Display} {b : Bool} {s : State} {f g : Blit} (hhit : g.hit = f.hit) :
    { applyBlit g { s with disp := d, trace := b } with disp := f.grid, trace := s.trace } = applyBlit f s := by
  unfold applyBlit
  rw [hhit]
  rfl

/-- Two draws on grids with the same logical cells end alike but for the intensities. -/
theorem exec_drw_intensities {d : Display} {b : Bool} {x y : RegIdx} {n : BitVec 4} {s t u : State}
    (hon : ∀ p q, gridOn d p q = s.on p q) (hst : exec (.drw x y n) s = .next t)
    (hsu : exec (.drw x y n) { s with disp := d, trace := b } = .next u) :
    (∀ p q, u.on p q = t.on p q) ∧ { u with disp := t.disp, trace := t.trace } = t := by
  obtain ⟨hhit, hnew⟩ := spriteBlit_flags_eq (b := b) x y (drawnRows_on_display y n s) hon
  refine ⟨fun p q => ?_, ?_⟩
  · rw [exec_drw_on hsu, exec_drw_on hst, ← hon p q]
    rfl
  · rcases exec_drw_cases x y n s with ⟨hk, e⟩ | ⟨hk, e⟩ <;> cases exec_next_inj hst e
    · cases exec_next_inj hsu (exec_drw_completes x (s := { s with disp := d, trace := b }) hk)
      exact congrArg₂ State.setDrew (applyBlit_intensities hhit) (congrArg (fun c => if s.rflick then c else true) hnew)
    · cases exec_next_inj hsu (exec_drw_faults x (s := { s with disp := d, trace := b }) hk)
      exact congrArg (raise _) (applyBlit_intensities hhit)

/-- Settles O26: an instruction that writes no grid takes it along, a clear writes the same grid, and a draw toggles
the same cells and reports the same flags. -/
theorem intensitiesNeverFeedBack : Obligations.IntensitiesNeverFeedBack := by
  intro i s d b hiff t u hst hsu
  cases hgrid : writesGrid i with
  | false =>
    cases exec_next_inj hsu (exec_withModes d b s.schip hst hgrid fun _ => rfl)
    refine ⟨fun p q hp hq => ?_, ?_⟩
    · rw [State.cell, State.cell, exec_keeps_disp hst hgrid]
      exact hiff p q hp hq
    · rw [← exec_keeps_schip hst]
      rfl
  | true =>
    cases i with
    | cls => cases hst; cases hsu; exact ⟨fun _ _ _ _ => Iff.rfl, rfl⟩
    | drw x y n =>
      obtain ⟨hon, hframe⟩ := exec_drw_intensities (gridOn_eq_of_iff hiff) hst hsu
      refine ⟨fun p q _ _ => ?_, hframe⟩
      have hiff := Bool.eq_iff_iff.1 (hon p q)
      rwa [State.on, State.on, beq_iff_eq, beq_iff_eq] at hiff
    | _ => cases hgrid

end Sys2Proof.Machine

/-! PROOFS. The step (spec/45_step_cycle.md R200 to R211). -/

namespace Sys2Proof.Machine

/-! When a step executes and when it ticks (R201, R202, R206). -/

theorem doExec_iff (e : Rat) (s : State) :
    doExec e s = true ↔ s.run = .paused ∨ 1 / s.cpuHz ≤ s.cpuAcc + e := by
  rw [doExec, Bool.or_eq_true, beq_iff_eq, timerFired, decide_eq_true_eq, State.cpuPeriod]

theorem doTick_iff (e : Rat) (s : State) :
    doTick e s = true ↔ s.run = .paused ∨ 1 / 60 ≤ s.tickAcc + e := by
  rw [doTick, Bool.or_eq_true, beq_iff_eq, timerFired, decide_eq_true_eq, Config.tickPeriod]

/-! The three shapes of a step, each under its condition (R202, R208, R209). -/

theorem cycle_halted (e : Rat) {s : State} (h : s.fault ≠ none) : cycle e s = .next (s.setOutputs false false) := by
  rcases cycle_cases e s with ⟨_, hc⟩ | ⟨hf, _⟩ | ⟨hf, _⟩
  · exact hc
  · exact absurd hf h
  · exact absurd hf h

theorem cycle_executes {e : Rat} {s u : State} (hf : s.fault = none) (hd : doExec e s = true)
    (hu : fetchExecute (beginStep e s) = .next u) : cycle e s = .next (finishStep (doTick e s) (sweepAfter u)) := by
  rcases cycle_cases e s with ⟨hf', _⟩ | ⟨_, _, v, hv, hc⟩ | ⟨_, hd', _⟩
  · rw [hf] at hf'
    cases hf'
  · obtain rfl : v = u := Host.Outcome.next.inj (hv.symm.trans hu)
    exact hc
  · rw [hd] at hd'
    cases hd'

theorem cycle_idle {e : Rat} {s : State} (hf : s.fault = none) (hd : doExec e s = false) :
    cycle e s = .next (finishStep (doTick e s) (beginStep e s)) := by
  rcases cycle_cases e s with ⟨hf', _⟩ | ⟨_, hd', _⟩ | ⟨_, _, hc⟩
  · rw [hf] at hf'
    cases hf'
  · rw [hd] at hd'
    cases hd'
  · exact hc

theorem sweepAfter_of_fault {s : State} (h : s.fault ≠ none) : sweepAfter s = s :=
  if_pos (Option.isSome_iff_ne_none.2 h)

theorem sweepAfter_of_none {s : State} (h : s.fault = none) : sweepAfter s = s.setKeys (sweepKeys s.key) :=
  if_neg (by simp [h])

/-- A step whose execute faults ends there (R209). -/
theorem cycle_faults {e : Rat} {s u : State} (hf : s.fault = none) (hd : doExec e s = true)
    (hu : fetchExecute (beginStep e s) = .next u) (hu' : u.fault ≠ none) :
    cycle e s = .next (u.setOutputs false false) := by
  rw [cycle_executes hf hd hu, sweepAfter_of_fault hu', finishStep_of_fault (Option.isSome_iff_ne_none.2 hu')]

/-! The end of a step (R205, R206, R207). -/

/-! What the end of a step leaves, item by item. -/

@[simp] theorem finishStep_v (b : Bool) (s : State) : (finishStep b s).v = s.v :=
  (congrArg State.v (finishStep_frame b s) :)

@[simp] theorem finishStep_i (b : Bool) (s : State) : (finishStep b s).i = s.i :=
  (congrArg State.i (finishStep_frame b s) :)

@[simp] theorem finishStep_pc (b : Bool) (s : State) : (finishStep b s).pc = s.pc :=
  (congrArg State.pc (finishStep_frame b s) :)

@[simp] theorem finishStep_sp (b : Bool) (s : State) : (finishStep b s).sp = s.sp :=
  (congrArg State.sp (finishStep_frame b s) :)

@[simp] theorem finishStep_stack (b : Bool) (s : State) : (finishStep b s).stack = s.stack :=
  (congrArg State.stack (finishStep_frame b s) :)

@[simp] theorem finishStep_mem (b : Bool) (s : State) : (finishStep b s).mem = s.mem :=
  (congrArg State.mem (finishStep_frame b s) :)

@[simp] theorem finishStep_disp (b : Bool) (s : State) : (finishStep b s).disp = s.disp :=
  (congrArg State.disp (finishStep_frame b s) :)

@[simp] theorem finishStep_key (b : Bool) (s : State) : (finishStep b s).key = s.key :=
  (congrArg State.key (finishStep_frame b s) :)

@[simp] theorem finishStep_cpuAcc (b : Bool) (s : State) : (finishStep b s).cpuAcc = s.cpuAcc :=
  (congrArg State.cpuAcc (finishStep_frame b s) :)

@[simp] theorem finishStep_tickAcc (b : Bool) (s : State) : (finishStep b s).tickAcc = s.tickAcc :=
  (congrArg State.tickAcc (finishStep_frame b s) :)

@[simp] theorem finishStep_trace (b : Bool) (s : State) : (finishStep b s).trace = s.trace :=
  (congrArg State.trace (finishStep_frame b s) :)

@[simp] theorem finishStep_cpuHz (b : Bool) (s : State) : (finishStep b s).cpuHz = s.cpuHz :=
  (congrArg State.cpuHz (finishStep_frame b s) :)

@[simp] theorem finishStep_romLen (b : Bool) (s : State) : (finishStep b s).romLen = s.romLen :=
  (congrArg State.romLen (finishStep_frame b s) :)

@[simp] theorem finishStep_rom (b : Bool) (s : State) : (finishStep b s).rom = s.rom :=
  (congrArg State.rom (finishStep_frame b s) :)

@[simp] theorem finishStep_fault (b : Bool) (s : State) : (finishStep b s).fault = s.fault :=
  (congrArg State.fault (finishStep_frame b s) :)

@[simp] theorem finishStep_keyAt (b : Bool) (s : State) (k : RegIdx) : (finishStep b s).keyAt k = s.keyAt k := by
  rw [State.keyAt, State.keyAt]
  simp only [finishStep_key]

section FinishStep

variable (b : Bool) {s : State} (h : s.fault = none)
include h

theorem finishStep_dt_toNat : (finishStep b s).dt.toNat = if b then s.dt.toNat - 1 else s.dt.toNat := by
  rw [finishStep_of_none b h]
  cases b
  · rfl
  · exact countDown_toNat s.dt

theorem finishStep_st_toNat : (finishStep b s).st.toNat = if b then s.st.toNat - 1 else s.st.toNat := by
  rw [finishStep_of_none b h]
  cases b
  · rfl
  · exact countDown_toNat s.st

theorem finishStep_drew : (finishStep b s).drew = s.drew := by
  rw [finishStep_of_none b h]
  cases b <;> rfl

/-- The tone sounds while running as long as the ticked `ST` is not 0 (R207). -/
theorem finishStep_beep_iff : (finishStep b s).beep = true ↔ s.run = .running ∧ (finishStep b s).st.toNat ≠ 0 := by
  have hbeep : (finishStep b s).beep = (s.run == .running && (finishStep b s).st != 0) := by
    rw [finishStep_of_none b h]
    cases b <;> rfl
  rw [hbeep, Bool.and_eq_true, beq_iff_eq, bne_iff_ne, Ne, Ne, ← BitVec.toNat_inj]
  rfl

end FinishStep

theorem sweepSlot_eq (q : KeyState) : sweepSlot q = if q = .justReleased then .released else q := by
  cases q <;> rfl

/-- After an execute without fault only the key latch, the timers and the tone are written. -/
theorem finishStep_sweepAfter_frame (b : Bool) {u : State} (h : u.fault = none) :
    { finishStep b (sweepAfter u) with key := u.key, dt := u.dt, st := u.st, beep := u.beep } = u := by
  have hs : (sweepAfter u).fault = none := (sweepAfter_fault u).trans h
  have hsweep : { sweepAfter u with key := u.key, dt := u.dt, st := u.st, beep := u.beep } = u := by
    rw [sweepAfter_of_none h]
    rfl
  have hframe : { finishStep b (sweepAfter u) with
      key := u.key, dt := u.dt, st := u.st, drew := (finishStep b (sweepAfter u)).drew, beep := u.beep } = u := by
    rw [finishStep_drew b hs]
    exact (congrArg (fun w : State => { w with key := u.key, dt := u.dt, st := u.st, beep := u.beep })
      (finishStep_frame b (sweepAfter u))).trans hsweep
  exact hframe

theorem finishStep_sweepAfter_keyAt (b : Bool) {u : State} (h : u.fault = none) (k : RegIdx) :
    (finishStep b (sweepAfter u)).keyAt k = if u.keyAt k = .justReleased then .released else u.keyAt k := by
  rw [finishStep_keyAt, sweepAfter_keyAt, h, ← sweepSlot_eq]
  rfl

/-! Fetch and execute (R203, R204). -/

/-- `s` with the items of `t` that no fetch and no instruction writes (R29 to R32). -/
def undoExecute (s t : State) : State :=
  { s with run := t.run, cpuAcc := t.cpuAcc, tickAcc := t.tickAcc, schip := t.schip, trace := t.trace,
           rflick := t.rflick, cpuHz := t.cpuHz, romLen := t.romLen, rom := t.rom, beep := t.beep, steps := t.steps }

theorem undoExecute_undoWrites (r s t : State) (i : Instr) :
    undoExecute r (undoWrites s t i) = undoExecute r t := by
  cases i <;> rfl

theorem fetchExecute_undoExecute {s u : State} (h : fetchExecute s = .next u) : undoExecute s u = s := by
  rcases fetchExecute_cases s with ⟨_, e⟩ | ⟨_, _, _, e⟩ | ⟨_, i, _, e⟩ <;> rw [e] at h
  · cases h; rfl
  · cases h; rfl
  · rw [← undoExecute_undoWrites s _ u i, exec_undoWrites h]
    rfl

/-- Fetch and execute leave the host's items. -/
theorem fetchExecute_keeps {α : Type} (item : State → α) {s u : State} (h : fetchExecute s = .next u) :
    item (undoExecute s u) = item s := congrArg item (fetchExecute_undoExecute h)

/-! The state in which the fetched word is executed. -/

section AfterFetch

variable (e : Rat) (s : State)

@[simp] theorem afterFetch_pc : (s.afterFetch e).pc = s.pc + 2 := rfl

@[simp] theorem afterFetch_fetchWord : (s.afterFetch e).fetchWord = s.nextWord := by simp [State.afterFetch]

@[simp] theorem afterFetch_fetchAddr : (s.afterFetch e).fetchAddr = s.pc := by simp [State.afterFetch]

@[simp] theorem afterFetch_dt : (s.afterFetch e).dt = s.dt := by simp [State.afterFetch]

@[simp] theorem afterFetch_st : (s.afterFetch e).st = s.st := by simp [State.afterFetch]

@[simp] theorem afterFetch_key : (s.afterFetch e).key = s.key := by simp [State.afterFetch]

@[simp] theorem afterFetch_fault : (s.afterFetch e).fault = s.fault := by simp [State.afterFetch]

end AfterFetch

/-- The three ends of the fetch and execute of a step (R203, R204). -/
theorem fetchExecute_beginStep_cases (e : Rat) (s : State) :
    (s.pc.toNat > 0xFFE ∧ fetchExecute (beginStep e s) =
        .next (raise (.memBounds (max s.pc.toNat 4096)) ((beginStep e s).setFetched 0 s.pc))) ∨
      (s.pc.toNat ≤ 0xFFE ∧ ∃ x, decodeWord s.nextWord = .error x ∧ fetchExecute (beginStep e s) =
        .next (raise .decodeFault (((beginStep e s).setFetched s.nextWord s.pc).setPc (s.pc + 2)))) ∨
      (s.pc.toNat ≤ 0xFFE ∧ ∃ i, decodeWord s.nextWord = .ok i ∧
        fetchExecute (beginStep e s) = exec i (s.afterFetch e)) :=
  fetchExecute_cases (beginStep e s)

theorem fetchExecute_beginStep_decodes (e : Rat) {s : State} {i : Instr} (hpc : s.pc.toNat ≤ 0xFFE)
    (hd : decodeWord s.nextWord = .ok i) : fetchExecute (beginStep e s) = exec i (s.afterFetch e) := by
  rcases fetchExecute_beginStep_cases e s with ⟨h, _⟩ | ⟨_, x, h, _⟩ | ⟨_, j, h, he⟩
  · exact absurd hpc (Nat.not_le_of_lt h)
  · cases hd.symm.trans h
  · cases hd.symm.trans h
    exact he

/-- Settles O37: an executing step whose word decodes is the execution of that instruction, then the end of the step. -/
theorem stepRunsDecodedInstruction : Obligations.StepRunsDecodedInstruction := by
  intro s i hf hd hpc hdec
  obtain ⟨u, hu⟩ := exec_isNext i (s.afterFetch (Config.elapsed s.steps).val)
  exact ⟨u, hu, cycle_executes hf hd ((fetchExecute_beginStep_decodes _ hpc hdec).trans hu)⟩

/-- A predicate on states is kept by a step when each of its phases keeps it. -/
theorem cycle_invariant {P : State → Prop} (houtputs : ∀ s d b, P s → P (s.setOutputs d b))
    (hbegin : ∀ e s, P s → P (beginStep e s)) (hexec : ∀ s u, P s → fetchExecute s = .next u → P u)
    (hsweep : ∀ s, P s → P (sweepAfter s)) (hfinish : ∀ b s, P s → P (finishStep b s))
    {e : Rat} {s t : State} (hs : P s) (h : cycle e s = .next t) : P t := by
  rcases cycle_cases e s with ⟨_, hc⟩ | ⟨_, _, u, hu, hc⟩ | ⟨_, _, hc⟩ <;> cases h.symm.trans hc
  · exact houtputs s false false hs
  · exact hfinish _ _ (hsweep _ (hexec _ _ (hbegin e s hs) hu))
  · exact hfinish _ _ (hbegin e s hs)

/-! What a step that faults before it executes leaves unchanged, one layer of its writes at a time. -/

/-- `t` without a fault, with `PC` at `p`, and with the timers, latch, counter and outputs of `s`. -/
def undoFaultedStep (s t : State) (p : Word) : State :=
  { t with fault := none, pc := p, cpuAcc := s.cpuAcc, tickAcc := s.tickAcc, steps := s.steps,
           fetchWord := s.fetchWord, fetchAddr := s.fetchAddr, drew := s.drew, beep := s.beep }

theorem undoFaultedStep_fetchFault (s u : State) (c : FaultCause) (w a : Word) :
    undoFaultedStep s ((raise c (u.setFetched w a)).setOutputs false false)
      ((raise c (u.setFetched w a)).setOutputs false false).pc = undoFaultedStep s u u.pc := rfl

theorem undoFaultedStep_decodeFault (s u : State) (c : FaultCause) (w a p q : Word) :
    undoFaultedStep s ((raise c ((u.setFetched w a).setPc p)).setOutputs false false) q = undoFaultedStep s u q := rfl

theorem undoFaultedStep_beginStep (e : Rat) {s : State} (hf : s.fault = none) :
    undoFaultedStep s (beginStep e s) s.pc = s := by
  have hnone : { s with fault := none } = s := (congrArg (fun f => { s with fault := f }) hf).symm
  exact (show undoFaultedStep s (beginStep e s) s.pc = { s with fault := none } from rfl).trans hnone

/-- Settles O38: the two faults of a fetch and decode end the step. -/
theorem stepFaultsOnBadWord : Obligations.StepFaultsOnBadWord := by
  intro e s hf hd
  have hbegin := undoFaultedStep_beginStep e hf
  rcases fetchExecute_beginStep_cases e s with ⟨hpc, hu⟩ | ⟨hpc, _, _, hu⟩ | ⟨hpc, i, hi, _⟩
  · refine ⟨fun _ => ⟨_, cycle_faults hf hd hu (Option.some_ne_none _), rfl, rfl, rfl, ?_⟩,
      fun hle => absurd hle (Nat.not_le_of_lt hpc)⟩
    exact (undoFaultedStep_fetchFault s (beginStep e s) _ 0 s.pc).trans hbegin
  · refine ⟨fun hgt => absurd hpc (Nat.not_le_of_lt hgt), fun _ _ =>
      ⟨_, cycle_faults hf hd hu (Option.some_ne_none _), rfl, rfl, rfl, rfl, ?_⟩⟩
    exact (undoFaultedStep_decodeFault s (beginStep e s) _ s.nextWord s.pc (s.pc + 2) s.pc).trans hbegin
  · refine ⟨fun hgt => absurd hpc (Nat.not_le_of_lt hgt), fun _ ⟨x, hx⟩ => ?_⟩
    cases hx.symm.trans hi

/-- Settles O39: the first shape of a step, and an execute that faults. -/
theorem faultedCoreStands : Obligations.FaultedCoreStands :=
  ⟨fun e _ h => ⟨_, cycle_halted e h, rfl, rfl, rfl⟩,
    fun _ _ _ hf hd hu hu' => ⟨_, cycle_faults hf hd hu hu', rfl, rfl, rfl⟩⟩

/-- Settles O42: the end of the step after an execute without fault. -/
theorem executedStepSweepsTicksBeeps : Obligations.ExecutedStepSweepsTicksBeeps := by
  intro e s u hf hexec hu hu'
  have hs : (sweepAfter u).fault = none := (sweepAfter_fault u).trans hu'
  have hrun : (sweepAfter u).run = s.run := (sweepAfter_run u).trans (fetchExecute_keeps State.run hu)
  refine ⟨_, cycle_executes hf ((doExec_iff e s).2 hexec) hu, finishStep_sweepAfter_keyAt _ hu', ?_, ?_, ?_,
    finishStep_sweepAfter_frame _ hu'⟩
  · simp only [finishStep_dt_toNat _ hs, doTick_iff, sweepAfter_dt]
  · simp only [finishStep_st_toNat _ hs, doTick_iff, sweepAfter_st]
  · rw [finishStep_beep_iff _ hs, hrun]

/-- Settles O40: while `Paused` both conditions hold, and the tone is silent. -/
theorem pausedStepExecutesAndTicks : Obligations.PausedStepExecutesAndTicks := by
  refine ⟨rfl, fun e s hrun hf => ?_⟩
  have hd : doExec e s = true := (doExec_iff e s).2 (.inl hrun)
  obtain ⟨u, hu⟩ := fetchExecute_isNext (beginStep e s)
  by_cases hu' : u.fault = none
  · obtain ⟨t, hc, hkeys, hdt, hst, hbeep, hframe⟩ := executedStepSweepsTicksBeeps e s u hf (.inl hrun) hu hu'
    rw [if_pos (.inl hrun)] at hdt hst
    have hsilent : t.beep = false := by
      rw [← Bool.not_eq_true, hbeep, hrun]
      exact fun h => RunState.noConfusion h.1
    exact ⟨u, t, hu, hc, hsilent, fun _ => ⟨hdt, hst, hkeys, hframe⟩, fun h => absurd hu' h⟩
  · exact ⟨u, _, hu, cycle_faults hf hd hu hu', rfl, fun h => absurd h hu', fun _ => ⟨rfl, rfl⟩⟩

/-- Settles O41: the third shape of a step. -/
theorem idleStepExecutesNothing : Obligations.IdleStepExecutesNothing := by
  intro e s hf hrun hlt
  have hnot : s.run ≠ .paused := by
    rw [hrun]
    exact RunState.noConfusion
  have hd : doExec e s = false := by
    rw [← Bool.not_eq_true, doExec_iff]
    exact not_or.2 ⟨hnot, not_le.2 hlt⟩
  have htick : doTick e s = true ↔ 1 / 60 ≤ s.tickAcc + e := (doTick_iff e s).trans (or_iff_right hnot)
  have hb : (beginStep e s).fault = none := hf
  refine ⟨_, cycle_idle hf hd, finishStep_drew _ hb, ?_, ?_, ?_, ?_⟩
  · simp only [finishStep_dt_toNat _ hb, htick, beginStep_dt]
  · simp only [finishStep_st_toNat _ hb, htick, beginStep_st]
  · rw [finishStep_beep_iff _ hb]
    exact and_iff_right hrun
  · exact (congrArg
      (fun u : State => { u with cpuAcc := s.cpuAcc, tickAcc := s.tickAcc, steps := s.steps, drew := s.drew })
      (finishStep_frame (doTick e s) (beginStep e s)) :)

/-! The interval timers (R201). -/

/-- A step of a core that is not faulted advances both timers, whatever it executes. -/
theorem cycle_timers {e : Rat} {s t : State} (hf : s.fault = none) (h : cycle e s = .next t) :
    t.cpuAcc = timerRemainder s.cpuAcc e s.cpuPeriod ∧ t.tickAcc = timerRemainder s.tickAcc e Config.tickPeriod := by
  rcases cycle_cases e s with ⟨hf', _⟩ | ⟨_, _, u, hu, hc⟩ | ⟨_, _, hc⟩
  · rw [hf] at hf'
    cases hf'
  · cases h.symm.trans hc
    constructor
    · rw [finishStep_cpuAcc, sweepAfter_cpuAcc]
      exact fetchExecute_keeps State.cpuAcc hu
    · rw [finishStep_tickAcc, sweepAfter_tickAcc]
      exact fetchExecute_keeps State.tickAcc hu
  · cases h.symm.trans hc
    rw [finishStep_cpuAcc, finishStep_tickAcc]
    exact ⟨rfl, rfl⟩

theorem cpuPeriod_pos {s : State} (h : 0 < s.cpuHz) : 0 < s.cpuPeriod := one_div_pos.2 h

theorem tickPeriod_pos : 0 < Config.tickPeriod := by
  rw [Config.tickPeriod]
  norm_num

/-- Settles O43: both accumulators are the remainder of the total. -/
theorem intervalTimersAdvance : Obligations.IntervalTimersAdvance := by
  intro e s t hf hhz hc
  obtain ⟨hcpu, htick⟩ := cycle_timers hf hc
  refine ⟨doExec_iff e s, doTick_iff e s, ?_, ?_⟩
  · rw [hcpu]
    exact timerRemainder_spec (cpuPeriod_pos hhz)
  · rw [htick]
    exact timerRemainder_spec tickPeriod_pos

/-! Faults of a step (R248). -/

/-- A step that latches a fault has latched it in its execute, and ended there. -/
theorem cycle_fault_raised {e : Rat} {s t : State} {r : FaultRecord} (hf : s.fault = none) (hc : cycle e s = .next t)
    (hr : t.fault = some r) : ∃ u, fetchExecute (beginStep e s) = .next u ∧ u.fault = some r ∧
      t = u.setOutputs false false := by
  rcases cycle_cases e s with ⟨hf', _⟩ | ⟨_, hd, u, hu, he⟩ | ⟨_, _, he⟩
  · rw [hf] at hf'
    cases hf'
  · by_cases hu' : u.fault = none
    · cases hc.symm.trans he
      rw [finishStep_fault, sweepAfter_fault, hu'] at hr
      cases hr
    · cases hc.symm.trans (cycle_faults hf hd hu hu')
      exact ⟨u, hu, hr, rfl⟩
  · cases hc.symm.trans he
    rw [finishStep_fault, beginStep_fault, hf] at hr
    cases hr

/-- Settles O45: what an execute may have written before it faults does not include `PC`, `DT`, `ST` or the key latch. -/
theorem faultRecordNamesInstruction : Obligations.FaultRecordNamesInstruction := by
  intro e s t r hf hc hr
  obtain ⟨u, hu, hur, rfl⟩ := cycle_fault_raised hf hc hr
  rcases fetchExecute_beginStep_cases e s with ⟨hpc, he⟩ | ⟨hpc, _, _, he⟩ | ⟨hpc, i, _, he⟩
  · cases hu.symm.trans he
    cases hur
    exact ⟨rfl, .inl ⟨hpc, rfl, by simp⟩, by simp⟩
  · cases hu.symm.trans he
    cases hur
    exact ⟨rfl, .inr ⟨hpc, rfl, by simp⟩, by simp⟩
  · rw [he] at hu
    rcases exec_fault_cases hu with hsame | ⟨c, w, rfl, hframe, _⟩
    · rw [hsame, afterFetch_fault, hf] at hur
      cases hur
    · cases hur
      exact ⟨(congrArg State.fetchAddr hframe :).trans (afterFetch_fetchAddr e s),
        .inr ⟨hpc, (congrArg State.fetchWord hframe :).trans (afterFetch_fetchWord e s),
          (congrArg State.pc hframe :).trans (afterFetch_pc e s)⟩,
        (congrArg State.dt hframe :).trans (afterFetch_dt e s), (congrArg State.st hframe :).trans (afterFetch_st e s),
        (congrArg State.key hframe :).trans (afterFetch_key e s), rfl, rfl⟩

/-- Settles O49: an idle step leaves all of it, and an executing one sets `PC` to where it was. -/
theorem jumpToSelfStays : Obligations.JumpToSelfStays := by
  intro e s a hf hpc hle hword
  have hdecode : decodeWord s.nextWord = .ok (.jp a) := by
    rw [hword]
    exact decodeWord_jp a
  have hself : a.setWidth 16 = s.pc := by
    apply BitVec.eq_of_toNat_eq
    rw [hpc, BitVec.toNat_setWidth_of_le (by decide)]
  cases hd : doExec e s with
  | false =>
    exact ⟨_, cycle_idle hf hd, by simp [hf]⟩
  | true =>
    have hu : fetchExecute (beginStep e s) = .next ((s.afterFetch e).setPc (a.setWidth 16)) :=
      (fetchExecute_beginStep_decodes e (hpc.le.trans hle) hdecode).trans (exec_jp a _)
    exact ⟨_, cycle_executes hf hd hu, by simp [State.afterFetch, hf, hself]⟩

end Sys2Proof.Machine

/-! PROOFS. The host's transactions (spec/46_host_interface.md R220 to R231, spec/70_reset_and_hazards.md R271, R272).
-/

namespace Sys2Proof.Machine

/-! The memory image (R51, R52, R272). -/

/-- The reset image, the font wherever it begins: it ends below the program area. -/
theorem resetByte_eq (a : Nat) : resetByte a =
    if Config.fontBase.val ≤ a ∧ a < Config.fontBase.val + 80 then fontData.getD (a - Config.fontBase.val) 0 else 0 := by
  have hbase : Config.fontBase.val < 433 := Config.fontBase.isLt
  unfold resetByte
  by_cases h : 0x200 ≤ a
  · rw [if_pos h, if_neg (by omega)]
  · rw [if_neg h]

theorem read_romImage (bytes : List Byte) (a : Nat) : (Memory.writeBytes [] 0x200 bytes).read a =
    if Config.fontBase.val ≤ a ∧ a < Config.fontBase.val + 80 then fontData.getD (a - Config.fontBase.val) 0
    else if 0x200 ≤ a ∧ a - 0x200 < bytes.length then bytes.getD (a - 0x200) 0
    else 0 := by
  have hbase : Config.fontBase.val < 433 := Config.fontBase.isLt
  rw [Memory.read_writeBytes, Memory.read_nil, resetByte_eq]
  by_cases h : 0x200 ≤ a ∧ a - 0x200 < bytes.length
  · rw [dif_pos h, if_neg (by omega), if_pos h, List.getD_eq_getElem _ _ h.2]
  · rw [dif_neg h, if_neg h]

/-! The reset values (R40, R41, R271). -/

theorem construct_reg (hz : Rat) (b : Bool) (r : RegIdx) : (State.construct hz b).reg r = 0 :=
  Vector.getElem_replicate _

theorem construct_stack (hz : Rat) (b : Bool) (j : Nat) (h : j < 16) : (State.construct hz b).stack[j] = 0 :=
  Vector.getElem_replicate _

theorem construct_keyAt (hz : Rat) (b : Bool) (k : RegIdx) : (State.construct hz b).keyAt k = .released :=
  Vector.getElem_replicate _

theorem construct_cell (hz : Rat) (b : Bool) (x y : Nat) : (State.construct hz b).cell x y = 0 :=
  Display.get_blank x y

theorem new_of_pos {hz : Rat} (b : Bool) (h : 0 < hz) : new hz b = .next (State.construct hz b) :=
  if_neg (not_le.2 h)

theorem new_of_nonpos {hz : Rat} (b : Bool) (h : hz ≤ 0) : new hz b = .refused .clockNotPositive := if_pos h

/-- Settles O56: every item of the constructed state, and the reset image. -/
theorem powerOnState : Obligations.PowerOnState := by
  intro hz b
  exact ⟨fun h => ⟨_, new_of_pos b h, rfl, rfl, rfl, rfl, construct_reg hz b, rfl, rfl, rfl, construct_stack hz b,
    fun x y _ _ => construct_cell hz b x y, rfl, rfl, construct_keyAt hz b, rfl, rfl, rfl, rfl, rfl, rfl, resetByte_eq⟩,
    new_of_nonpos b⟩

theorem insertCartridge_of_le {bytes : List Byte} (s : State) (h : bytes.length ≤ 3584) :
    insertCartridge bytes s = .next (resetWith bytes s) := if_neg (Nat.not_lt_of_le h)

theorem insertCartridge_of_gt {bytes : List Byte} (s : State) (h : bytes.length > 3584) :
    insertCartridge bytes s = .refused .romTooLong := if_pos h

/-- What an insertion can answer: the reset state with the ROM, which fits. -/
theorem insertCartridge_eq_next {bytes : List Byte} {s t : State} (h : insertCartridge bytes s = .next t) :
    bytes.length ≤ 3584 ∧ t = resetWith bytes s := by
  by_cases hlen : bytes.length ≤ 3584
  · rw [insertCartridge_of_le s hlen] at h
    cases h
    exact ⟨hlen, rfl⟩
  · rw [insertCartridge_of_gt s (Nat.lt_of_not_le hlen)] at h
    cases h

/-- Settles O57: the constructed state with the ROM over the reset image, and the kept items. -/
theorem cartridgeInsertionResets : Obligations.CartridgeInsertionResets := by
  intro bytes s
  exact ⟨fun h => ⟨_, insertCartridge_of_le s h, construct_reg s.cpuHz s.schip, rfl, rfl, rfl,
    construct_stack s.cpuHz s.schip, fun x y _ _ => construct_cell s.cpuHz s.schip x y, rfl, rfl,
    construct_keyAt s.cpuHz s.schip, rfl, rfl, rfl, rfl, rfl, rfl, rfl, rfl, rfl, rfl, read_romImage bytes⟩,
    insertCartridge_of_gt s⟩

/-- What a change of the clock can answer (R225). -/
theorem changeClock_eq_next {hz : Rat} {s t : State} (h : changeClock hz s = .next t) :
    0 < hz ∧ (hz = s.cpuHz ∧ t = s ∨ t = { s with cpuHz := hz, cpuAcc := 0 }) := by
  unfold changeClock at h
  split at h
  · cases h
  · next hpos =>
    refine ⟨not_le.1 hpos, ?_⟩
    split at h <;> cases h
    · exact .inl ⟨‹_›, rfl⟩
    · exact .inr rfl

theorem cycle_rom {e : Rat} {s t : State} (h : cycle e s = .next t) : t.rom = s.rom :=
  cycle_invariant (P := fun u => u.rom = s.rom) (fun _ _ _ hu => hu) (fun _ _ hu => hu)
    (fun _ _ hu he => (fetchExecute_keeps State.rom he).trans hu) (fun u hu => (sweepAfter_rom u).trans hu)
    (fun b u hu => (finishStep_rom b u).trans hu) rfl h

/-- What a step with an `elapsed` can answer (R231). -/
theorem transact_step_eq_next {e : Rat} {s t : State} (h : transact (.step e) s = .next t) :
    0 ≤ e ∧ cycle e s = .next t := by
  rw [transact] at h
  split at h
  · cases h
  · exact ⟨not_lt.1 ‹_›, h⟩

theorem transact_keeps_rom {a : Transaction} {s t : State} (ha : ∀ b, a ≠ .insertCartridge b)
    (h : transact a s = .next t) : t.rom = s.rom := by
  cases a with
  | step e => exact cycle_rom (transact_step_eq_next h).2
  | insertCartridge bytes => exact absurd rfl (ha bytes)
  | reset => rw [(insertCartridge_eq_next h).2]; rfl
  | changeClock hz =>
    obtain ⟨_, ⟨_, rfl⟩ | rfl⟩ := changeClock_eq_next h <;> rfl
  | pause | run | setTrace b | setReduceFlicker b | keyWrite k q => cases h; rfl
  | decay d => cases h; exact State.setDisp_rom s _

/-- Settles O58: `reset()` is the insertion of the ROM that every other transaction keeps. -/
theorem resetReinsertsLastRom : Obligations.ResetReinsertsLastRom := by
  refine ⟨fun a s t => transact_keeps_rom, fun bytes s t u h hrom => ?_⟩
  obtain ⟨hlen, rfl⟩ := insertCartridge_eq_next h
  obtain rfl : u.rom = bytes := hrom
  exact ⟨_, insertCartridge_of_le u hlen, rfl⟩

theorem changeClock_of_nonpos {hz : Rat} (s : State) (h : hz ≤ 0) : changeClock hz s = .refused .clockNotPositive :=
  if_pos h

theorem changeClock_same (s : State) :
    changeClock s.cpuHz s = if s.cpuHz ≤ 0 then .refused .clockNotPositive else .next s := by
  rw [changeClock, if_pos rfl]

theorem changeClock_other {hz : Rat} {s : State} (h : 0 < hz) (hne : hz ≠ s.cpuHz) :
    changeClock hz s = .next { s with cpuHz := hz, cpuAcc := 0 } := by
  rw [changeClock, if_neg (not_le.2 h), if_neg hne]

/-- Settles O59: each setter is one write, and a change of the clock two. -/
theorem hostSettersChangeOneItem : Obligations.HostSettersChangeOneItem := by
  intro s
  refine ⟨⟨_, rfl, rfl, rfl⟩, ⟨_, rfl, rfl, rfl⟩, fun b => ⟨_, rfl, rfl, rfl⟩, fun b => ⟨_, rfl, rfl, rfl⟩,
    fun k q => ⟨_, rfl, fun j => ?_, rfl⟩, changeClock_same s,
    fun hz h hne => ⟨_, changeClock_other h hne, rfl, rfl, rfl, rfl⟩, fun hz h => changeClock_of_nonpos s h⟩
  rw [State.keyAt_setKey]
  simp only [@eq_comm _ j]

/-! The decay pass (R151). -/

theorem get_decayGrid (d faded : Display) {x y : Nat} (hx : x < 64) (hy : y < 32) :
    Display.get (decayGrid d faded) x y = decayCell (Display.get d x y) (Display.get faded x y) := by
  rw [Display.get, dif_pos ⟨hx, hy⟩]
  simp only [decayGrid, Vector.getElem_ofFn]

theorem decayCell_of_end {old : Byte} (faded : Byte) (h : old = 0 ∨ old = 255#8) : decayCell old faded = old :=
  if_pos (h.imp id .inl)

theorem decayCell_eq_full_iff (old faded : Byte) : decayCell old faded = 255#8 ↔ old = 255#8 := by
  unfold decayCell
  split
  · exact Iff.rfl
  · next h =>
    obtain ⟨-, hold, hfaded⟩ := not_or.1 h |>.imp id not_or.1
    exact iff_of_false hfaded hold

theorem decayCell_self (old : Byte) : decayCell old old = old := ite_self _

theorem decayCell_allowed {old faded : Byte} (h0 : old ≠ 0) (h255 : old ≠ 255#8) (hf : faded ≠ 255#8) :
    decayCell old faded = faded := if_neg (not_or.2 ⟨h0, not_or.2 ⟨h255, hf⟩⟩)

theorem State.setDisp_frame (d : Display) (s : State) : { s.setDisp d with disp := s.disp } = s := rfl

theorem transact_decay (d : Display) (s : State) : transact (.decay d) s = .next (s.setDisp (decayGrid s.disp d)) := rfl

/-- Settles O60: cell by cell, what the pass may do and that a pass does it. -/
theorem decayLeavesLogicalPicture : Obligations.DecayLeavesLogicalPicture := by
  refine ⟨fun d s => ⟨_, transact_decay d s, fun x y hx hy => ?_, State.setDisp_frame _ s⟩,
    fun s t hframe hcells => ⟨t.disp, ?_⟩⟩
  · have hcell : (s.setDisp (decayGrid s.disp d)).cell x y = decayCell (s.cell x y) (Display.get d x y) :=
      get_decayGrid s.disp d hx hy
    rw [State.on, State.on, hcell]
    refine ⟨fun h => decayCell_of_end _ h, fun h => mt (decayCell_eq_full_iff _ _).1 h, ?_⟩
    rw [Bool.eq_iff_iff, beq_iff_eq, beq_iff_eq, decayCell_eq_full_iff]
  · have hgrid : decayGrid s.disp t.disp = t.disp := by
      refine Display.ext_get fun x y hx hy => ?_
      rw [get_decayGrid _ _ hx hy]
      by_cases hsame : t.cell x y = s.cell x y
      · exact (congrArg (decayCell (s.cell x y)) hsame).trans ((decayCell_self _).trans hsame.symm)
      · obtain ⟨h0, h255, hf⟩ := hcells x y hx hy hsame
        exact decayCell_allowed h0 h255 hf
    have ht : s.setDisp t.disp = t := (congrArg (fun u : State => u.setDisp t.disp) hframe).symm
    rw [transact_decay, hgrid, ht]

end Sys2Proof.Machine

/-! PROOFS. What every step and every transaction keeps (spec/10_state.md sections 3 to 7). -/

namespace Sys2Proof.Machine

/-! Memory in canonical form (R50, log entry 17). -/

/-- Bytes that end inside memory, or none at all, keep the canonical form. -/
theorem Memory.writeBytes_inside_keeps_wf {m : Memory} (h : m.wf) {a : Nat} {bs : List Byte}
    (hlen : bs.length ≤ 4096 - a) : (m.writeBytes a bs).wf := by
  cases bs with
  | nil => exact h
  | cons b bs =>
    refine Memory.writeBytes_keeps_wf h ?_
    rw [List.length_cons] at hlen ⊢
    show _ ≤ 4096
    omega

/-- Only the two stores write memory, and what they write ends inside it. -/
theorem exec_keeps_memoryCanonical {i : Instr} {s t : State} (hs : s.MemoryCanonical) (h : exec i s = .next t) :
    t.MemoryCanonical := by
  by_cases hsame : t.mem = s.mem
  · rw [State.MemoryCanonical, hsame]
    exact hs
  · rcases mem_writers h hsame with ⟨x, rfl⟩ | ⟨x, rfl⟩
    · cases exec_next_inj h (exec_ldB x s)
      rw [storeBytes_spec _ (significantDigits_ne_nil _)]
      exact Memory.writeBytes_inside_keeps_wf hs (List.length_take_le _ _)
    · cases exec_next_inj h (exec_storeRegs x s)
      rw [storeBlock_spec]
      refine Memory.writeBytes_inside_keeps_wf hs ?_
      rw [regsFrom, List.length_map, List.length_range']
      exact Nat.min_le_right _ _

theorem fetchExecute_keeps_memoryCanonical {s u : State} (hs : s.MemoryCanonical) (h : fetchExecute s = .next u) :
    u.MemoryCanonical := by
  rcases fetchExecute_cases s with ⟨_, e⟩ | ⟨_, _, _, e⟩ | ⟨_, i, _, e⟩ <;> rw [e] at h
  · cases h; exact hs
  · cases h; exact hs
  · refine exec_keeps_memoryCanonical ?_ h
    exact hs

theorem cycle_keeps_memoryCanonical {e : Rat} {s t : State} (hs : s.MemoryCanonical) (h : cycle e s = .next t) :
    t.MemoryCanonical := by
  refine cycle_invariant (P := State.MemoryCanonical) (fun _ _ _ hu => hu) (fun _ _ hu => hu)
    (fun _ _ => fetchExecute_keeps_memoryCanonical) (fun u hu => ?_) (fun b u hu => ?_) hs h
  · rw [State.MemoryCanonical, sweepAfter_mem]
    exact hu
  · rw [State.MemoryCanonical, finishStep_mem]
    exact hu

/-- Settles O51: the stores keep the form, and nothing else writes memory. -/
theorem stepKeepsMemoryCanonical : Obligations.StepKeepsMemoryCanonical := by
  intro s t hs h
  exact cycle_keeps_memoryCanonical hs h

/-! `PC` and the stack (R23, R100). -/

/-- The slots hold addresses of instructions that can follow a call. -/
abbrev StackBounded (s : State) : Prop := ∀ j : Fin 16, (s.stack[j.val]'j.isLt).toNat ≤ 0x1000

theorem skipIf_pc_le {c : Bool} {s : State} (h : s.pc.toNat ≤ 0x1000) : (skipIf c s).pc.toNat ≤ 0x10FE := by
  rw [skipIf_pc]
  split
  · bv_omega
  · omega

theorem jumpTarget_le (x : RegIdx) (a : Addr12) (s : State) : (jumpTarget x a s).toNat ≤ 0x10FE := by
  rw [jumpTarget_toNat]
  generalize (if s.schip = true then s.reg x else s.reg 0) = b
  have hb := b.isLt
  have ha := a.isLt
  omega

theorem addr_le (a : Addr12) : (a.setWidth 16 : Word).toNat ≤ 0x10FE := by
  rw [BitVec.toNat_setWidth_of_le (by decide)]
  have ha := a.isLt
  omega

theorem keySkip_pc_le {test : KeyState → Bool} {x : RegIdx} {s : State} (h : s.pc.toNat ≤ 0x1000) :
    (keySkip test x s).pc.toNat ≤ 0x10FE := by
  rcases keySkip_cases test x s with ⟨_, e⟩ | ⟨_, e⟩ <;> rw [e]
  · exact h.trans (by decide)
  · exact skipIf_pc_le h

/-- Where an instruction leaves `PC` when it has just been fetched. -/
theorem exec_pc_le {i : Instr} {s t : State} (hlow : 2 ≤ s.pc.toNat) (hpc : s.pc.toNat ≤ 0x1000)
    (hstack : StackBounded s) (h : exec i s = .next t) : t.pc.toNat ≤ 0x10FE := by
  have hsame : s.pc.toNat ≤ 0x10FE := hpc.trans (by decide)
  cases i with
  | ret =>
    rcases exec_ret_cases s with ⟨_, e⟩ | ⟨h0, e⟩ <;> cases exec_next_inj h e
    · exact hsame
    · have hsp := s.sp.isLt
      exact (hstack ⟨s.sp.val - 1, by omega⟩).trans (by decide)
  | jp a => cases h; exact addr_le a
  | call a =>
    rcases exec_call_cases a s with ⟨_, e⟩ | ⟨_, e⟩ <;> cases exec_next_inj h e
    · exact hsame
    · exact addr_le a
  | jpV0 x a => cases h; exact jumpTarget_le x a s
  | seK x k | sneK x k | seReg x y | sneReg x y => cases h; exact skipIf_pc_le hpc
  | skp x => cases exec_next_inj h (exec_skp x s); exact keySkip_pc_le hpc
  | sknp x => cases exec_next_inj h (exec_sknp x s); exact keySkip_pc_le hpc
  | ldVxKey x =>
    rcases exec_ldVxKey_cases x s with ⟨_, _, e⟩ | ⟨_, e⟩ <;> cases exec_next_inj h e
    · exact hsame
    · show (s.pc - 2).toNat ≤ _
      bv_omega
  | _ => exact (congrArg BitVec.toNat (exec_keeps State.pc h)).le.trans hsame

/-- A call alone writes a slot, with `PC`. -/
theorem exec_keeps_stackBounded {i : Instr} {s t : State} (hpc : s.pc.toNat ≤ 0x1000)
    (hstack : StackBounded s) (h : exec i s = .next t) : StackBounded t := by
  intro j
  by_cases hsame : t.stack = s.stack
  · simp only [hsame]
    exact hstack j
  · obtain ⟨a, rfl⟩ := stack_writers h hsame
    rcases exec_call_cases a s with ⟨_, e⟩ | ⟨_, e⟩ <;> cases exec_next_inj h e
    · exact hstack j
    · simp only [State.setPc_stack, State.setSp_stack, State.setStack_stack, Vector.getElem_set]
      split
      · exact hpc
      · exact hstack j

theorem pc_add_two_toNat {a : Word} (h : a.toNat ≤ 0xFFE) : (a + 2).toNat = a.toNat + 2 := by
  bv_omega

theorem fetchExecute_keeps_pcBounded {s u : State} (hs : s.PcBounded) (h : fetchExecute s = .next u) : u.PcBounded := by
  obtain ⟨hpc, hstack⟩ := hs
  rcases fetchExecute_cases s with ⟨_, e⟩ | ⟨hle, _, _, e⟩ | ⟨hle, i, _, e⟩ <;> rw [e] at h
  · cases h; exact ⟨hpc, hstack⟩
  · cases h
    refine ⟨?_, hstack⟩
    show (s.pc + 2).toNat ≤ 0x10FE
    rw [pc_add_two_toNat hle]
    omega
  · have hnext := pc_add_two_toNat hle
    have hlow : 2 ≤ (s.pc + 2).toNat := by omega
    have hhigh : (s.pc + 2).toNat ≤ 0x1000 := by omega
    refine ⟨exec_pc_le ?_ ?_ ?_ h, exec_keeps_stackBounded ?_ ?_ h⟩ <;> assumption

theorem cycle_keeps_pcBounded {e : Rat} {s t : State} (hs : s.PcBounded) (h : cycle e s = .next t) : t.PcBounded := by
  refine cycle_invariant (P := State.PcBounded) (fun _ _ _ hu => hu) (fun _ _ hu => hu)
    (fun _ _ => fetchExecute_keeps_pcBounded) (fun u hu => ?_) (fun b u hu => ?_) hs h
  · simpa only [State.PcBounded, sweepAfter_pc, sweepAfter_stack] using hu
  · simpa only [State.PcBounded, finishStep_pc, finishStep_stack] using hu

/-- Settles O52: the fetch leaves `PC` in 2 to 0x1000, and no instruction takes it or a slot further than that allows. -/
theorem stepKeepsPcBounded : Obligations.StepKeepsPcBounded := by
  intro s t hs h
  exact cycle_keeps_pcBounded hs h

/-! The clock and the accumulators (R30, R31). -/

theorem cycle_cpuHz {e : Rat} {s t : State} (h : cycle e s = .next t) : t.cpuHz = s.cpuHz :=
  cycle_invariant (P := fun u => u.cpuHz = s.cpuHz) (fun _ _ _ hu => hu) (fun _ _ hu => hu)
    (fun _ _ hu he => (fetchExecute_keeps State.cpuHz he).trans hu) (fun u hu => (sweepAfter_cpuHz u).trans hu)
    (fun b u hu => (finishStep_cpuHz b u).trans hu) rfl h

theorem cycle_keeps_timersInRange {e : Rat} {s t : State} (hs : s.TimersInRange) (h : cycle e s = .next t) :
    t.TimersInRange := by
  by_cases hf : s.fault = none
  · obtain ⟨hcpu, htick⟩ := cycle_timers hf h
    have hcpuIn := timerRemainder_spec (acc := s.cpuAcc) (elapsed := e) (cpuPeriod_pos hs.1)
    have htickIn := timerRemainder_spec (acc := s.tickAcc) (elapsed := e) tickPeriod_pos
    rw [State.TimersInRange, State.cpuPeriod, cycle_cpuHz h, hcpu, htick]
    exact ⟨hs.1, ⟨hcpuIn.1, hcpuIn.2.1⟩, htickIn.1, htickIn.2.1⟩
  · cases h.symm.trans (cycle_halted e hf)
    exact hs

/-- Settles O53: each accumulator is a remainder of its period. -/
theorem stepKeepsTimersInRange : Obligations.StepKeepsTimersInRange := by
  intro s t hs h
  exact cycle_keeps_timersInRange hs h

/-! The grid without trace (R26, R146, R149). -/

/-- A cell of a shown row takes the row's bits one after another, and each leaves it 0, 255 or alone. -/
theorem spriteBlit_twoValued (x y : RegIdx) {k : Nat} {s : State} (hs : s.DisplayTwoValued)
    (hk : (s.reg y).toNat % 32 + 0 + k ≤ Config.dispH) {p q : Nat} (hp : p < 64) (hq : q < 32) :
    Display.get (spriteBlit x y k s).grid p q = 0 ∨ Display.get (spriteBlit x y k s).grid p q = 255#8 := by
  obtain ⟨htrace, hcells⟩ := hs
  by_cases hrow : (s.reg y).toNat % 32 ≤ q ∧ q < (s.reg y).toNat % 32 + k
  · rw [spriteBlit_get x y s hk hp hrow.1 hrow.2, htrace, intensityAfter_eq]
    exact foldl_bitStep_twoValued _ _ _ _ _ (.inl (hcells p q hp hq))
  · rw [spriteBlit_get_outside x y k s (by omega)]
    exact hcells p q hp hq

theorem exec_keeps_displayTwoValued {i : Instr} {s t : State} (hs : s.DisplayTwoValued) (h : exec i s = .next t) :
    t.DisplayTwoValued := by
  refine ⟨(exec_keeps_trace h).trans hs.1, fun p q hp hq => ?_⟩
  by_cases hsame : t.disp = s.disp
  · rw [State.cell, hsame]
    exact hs.2 p q hp hq
  · rcases disp_writers h hsame with rfl | ⟨x, y, n, rfl⟩
    · cases exec_next_inj h (exec_cls s)
      exact .inl (Display.get_blank p q)
    · have hcell : t.cell p q = Display.get (spriteBlit x y (drawnRows y n s) s).grid p q :=
        (congrArg (fun u : State => u.cell p q) (exec_drw_applies h) :)
      rw [hcell]
      exact spriteBlit_twoValued x y hs (drawnRows_on_display y n s) hp hq

theorem fetchExecute_keeps_displayTwoValued {s u : State} (hs : s.DisplayTwoValued) (h : fetchExecute s = .next u) :
    u.DisplayTwoValued := by
  rcases fetchExecute_cases s with ⟨_, e⟩ | ⟨_, _, _, e⟩ | ⟨_, i, _, e⟩ <;> rw [e] at h
  · cases h; exact hs
  · cases h; exact hs
  · refine exec_keeps_displayTwoValued ?_ h
    exact hs

/-- Settles O54: a clear and a draw are all that write the grid. -/
theorem stepKeepsDisplayTwoValued : Obligations.StepKeepsDisplayTwoValued := by
  intro s t hs h
  refine cycle_invariant (P := State.DisplayTwoValued) (fun _ _ _ hu => hu) (fun _ _ hu => hu)
    (fun _ _ => fetchExecute_keeps_displayTwoValued) (fun u hu => ?_) (fun b u hu => ?_) hs h
  · simpa only [State.DisplayTwoValued, sweepAfter_trace, sweepAfter_cell] using hu
  · simpa only [State.DisplayTwoValued, State.cell, finishStep_trace, finishStep_disp] using hu

/-! Every transaction (R220, R221). -/

theorem construct_inv {hz : Rat} (b : Bool) (h : 0 < hz) : (State.construct hz b).Inv := by
  refine ⟨Memory.wf_nil, ⟨?_, fun j => ?_⟩, ⟨h, ⟨le_refl _, cpuPeriod_pos h⟩, le_refl _, tickPeriod_pos⟩, rfl,
    Nat.zero_le _⟩
  · show (0x200#16).toNat ≤ 0x10FE
    decide
  · rw [construct_stack]
    exact Nat.zero_le _

/-- An insertion keeps the clock and takes every other item of the invariant from construction and the ROM. -/
theorem resetWith_inv {bytes : List Byte} {s : State} (hlen : bytes.length ≤ 3584) (hclock : 0 < s.cpuHz) :
    (resetWith bytes s).Inv := by
  obtain ⟨-, hpc, htimers, -⟩ := construct_inv s.schip hclock
  refine ⟨Memory.writeBytes_keeps_wf Memory.wf_nil ?_, hpc, htimers, rfl, hlen⟩
  show 0x200 + bytes.length ≤ 4096
  omega

theorem cycle_keeps_inv {e : Rat} {s t : State} (hs : s.Inv) (h : cycle e s = .next t) : t.Inv := by
  obtain ⟨hmem, hpc, htimers, hrom⟩ := hs
  have hlen : t.romLen = s.romLen :=
    cycle_invariant (P := fun u => u.romLen = s.romLen) (fun _ _ _ hu => hu) (fun _ _ hu => hu)
      (fun _ _ hu he => (fetchExecute_keeps State.romLen he).trans hu) (fun u hu => (sweepAfter_romLen u).trans hu)
      (fun b u hu => (finishStep_romLen b u).trans hu) rfl h
  refine ⟨cycle_keeps_memoryCanonical hmem h, cycle_keeps_pcBounded hpc h, cycle_keeps_timersInRange htimers h, ?_⟩
  rw [State.RomRecorded, hlen, cycle_rom h]
  exact hrom

theorem setDisp_inv (d : Display) {s : State} (hs : s.Inv) : (s.setDisp d).Inv := hs

theorem transact_keeps_inv {a : Transaction} {s t : State} (hs : s.Inv) (h : transact a s = .next t) : t.Inv := by
  obtain ⟨hmem, hpc, htimers, hrom⟩ := hs
  cases a with
  | step e => exact cycle_keeps_inv ⟨hmem, hpc, htimers, hrom⟩ (transact_step_eq_next h).2
  | insertCartridge bytes =>
    obtain ⟨hlen, rfl⟩ := insertCartridge_eq_next h
    exact resetWith_inv hlen htimers.1
  | reset =>
    obtain ⟨hlen, rfl⟩ := insertCartridge_eq_next h
    exact resetWith_inv hlen htimers.1
  | changeClock hz =>
    obtain ⟨hpos, ⟨_, rfl⟩ | rfl⟩ := changeClock_eq_next h
    · exact ⟨hmem, hpc, htimers, hrom⟩
    · exact ⟨hmem, hpc, ⟨hpos, ⟨le_refl _, cpuPeriod_pos hpos⟩, htimers.2.2⟩, hrom⟩
  | pause | run | setTrace b | setReduceFlicker b | keyWrite k q =>
    cases h
    exact ⟨hmem, hpc, htimers, hrom⟩
  | decay d =>
    cases h
    exact setDisp_inv _ ⟨hmem, hpc, htimers, hrom⟩

theorem new_inv {hz : Rat} {b : Bool} {s : State} (h : new hz b = .next s) : s.Inv := by
  unfold new at h
  split at h
  · cases h
  · cases h
    exact construct_inv b (not_le.1 ‹_›)

/-- The invariant holds of every state that construction and transactions lead to. -/
theorem reachable_inv {s : State} (h : Reachable s) : s.Inv := by
  induction h with
  | construct hz b s h => exact new_inv h
  | act s t a _ h ih => exact transact_keeps_inv ih h

/-- Settles O55: construction, the step of the induction, and the induction over the transactions. -/
theorem reachableStatesMeetInvariants : Obligations.ReachableStatesMeetInvariants :=
  ⟨fun _ _ _ => new_inv, fun _ _ _ => transact_keeps_inv, fun _ => reachable_inv⟩

/-- Settles O50: the state after reset is a constructed one. -/
theorem resetMeetsInvariants : Obligations.ResetMeetsInvariants := by
  have hclock : 0 < Config.resetCpuHz := by
    rw [Config.resetCpuHz]
    norm_num
  exact ⟨construct_inv Config.resetSchip hclock, ⟨rfl, fun x y _ _ => .inl (construct_cell _ _ x y)⟩, rfl⟩

end Sys2Proof.Machine
